-- ==== Sys2Proof/Word.lean ====
section
/-! DEFINITION. The word types of the BFX (00_scope.md R5, R6, R7): bytes, command words and the two frames.

Bits are numbered from 0, the least significant, upward (R6), which is `BitVec`'s numbering, and every operator of R7
is `BitVec`'s own at the operand's width. -/

namespace Sys2Proof

/-- R5 `BYTE`, R7 `u8`: the width of a frame byte, a field value and a mask. -/
abbrev Byte := BitVec 8

/-- R61 format C16: every command is one 16-bit word. -/
abbrev CmdWord := BitVec 16

/-- R5 `RF_LEN` and R21: the read frame is ten bytes, index 0 first (R41). -/
abbrev ReadFrame := Vector Byte 10

/-- R5 `WF_LEN` and R22: the write frame is four bytes, index 0 first (R41). -/
abbrev WriteFrame := Vector Byte 4

end Sys2Proof
end

