-- ==== Sys2Proof/Config.lean ====
section
/-! DEFINITION. The configuration of a BFX (00_scope.md R5, 10_state.md R34): the register mask table, the
floating-point format and the value INIT merges into the address field, as plain data; and the one parameter without a
default, `BUS_ADDR`, as a constant without a body.

The VALUES of the defaults stand in Machine/Tables.lean. -/

namespace Sys2Proof

/-- R80: a field spec is the immutable triple `byte_index`, `mask`, `shift`, over a frame of `n` bytes.
R81 `TW1` (the index is inside the frame) and `TW2` (the shift is 0 to 7) hold by type: R63 asks for "a
static/compile-time guarantee of the mask table rather than a runtime check". -/
structure FieldSpec (n : Nat) where
  byteIndex : Fin n
  mask : Byte
  shift : Fin 8
deriving DecidableEq, Repr

/-- R11, R80: a spec addressing the read frame. -/
abbrev ReadFieldSpec := FieldSpec 10

/-- R11, R80: a spec addressing the write frame. -/
abbrev WriteFieldSpec := FieldSpec 4

/-- R82, R83: the read table `RT`. The fourteen required entries (R83, R81 `TW5`) stand under their names, so that a
table without one of them cannot be built; ids 14 and 15 may be assigned by another table (R81: a partial map from ids
0..15) and are unassigned by default. DESIGN CHOICE (log 13): a name keeps the id R82 gives it. -/
structure ReadTable where
  bxH : ReadFieldSpec
  bxL : ReadFieldSpec
  byH : ReadFieldSpec
  byL : ReadFieldSpec
  bzH : ReadFieldSpec
  bzL : ReadFieldSpec
  tempH : ReadFieldSpec
  tempL : ReadFieldSpec
  frm : ReadFieldSpec
  ch : ReadFieldSpec
  pd : ReadFieldSpec
  res1 : ReadFieldSpec
  res2 : ReadFieldSpec
  res3 : ReadFieldSpec
  id14 : Option ReadFieldSpec
  id15 : Option ReadFieldSpec
deriving DecidableEq, Repr

/-- R82, R83: the write table `WT`. The seven required entries stand under their names (R81 `TW5`). The four rows R82
marks "optional row" may be dropped (`none`), and ids 11 to 15 may be assigned by another table. -/
structure WriteTable where
  parity : WriteFieldSpec
  addr : WriteFieldSpec
  int : Option WriteFieldSpec
  fast : WriteFieldSpec
  lowpower : WriteFieldSpec
  tempNen : Option WriteFieldSpec
  lpPeriod : Option WriteFieldSpec
  parityEn : Option WriteFieldSpec
  res1 : WriteFieldSpec
  res2 : WriteFieldSpec
  res3 : WriteFieldSpec
  id11 : Option WriteFieldSpec
  id12 : Option WriteFieldSpec
  id13 : Option WriteFieldSpec
  id14 : Option WriteFieldSpec
  id15 : Option WriteFieldSpec
deriving DecidableEq, Repr

/-- R5, R81: the parameter `MASK_TABLE = (RT, WT)`. -/
structure MaskTable where
  rt : ReadTable
  wt : WriteTable
deriving DecidableEq, Repr

/-- R5 `FMT`, R122: the floating-point output format. -/
inductive Fmt where
  | binary32
  | binary64
deriving DecidableEq, Repr

/-- R34: what is fixed for a run and changed by no command. The scale constant `K` is computed from `fmt` (R122). -/
structure Config where
  table : MaskTable
  fmt : Fmt
  /-- R5 `INIT_ADDR_VALUE`: what INIT merges into the address field. -/
  initAddr : Byte
deriving DecidableEq, Repr

/-- R5 `LFC_W`: the width of the last-frame-counter register, at its default (log 10). -/
abbrev Config.lfcW : Nat := 8

/-- R5 `BUS_ADDR`: the address the machine was reset with before the first step. The spec gives it no default ("a model
argument"), so it has no body here and nothing can be proved of its value (log 1). -/
opaque Config.busAddr : Byte

end Sys2Proof
end

