-- ==== Sys2Proof/Syntax.lean ====
section
/-! DEFINITION. The seven commands of the BFX (30_encoding.md R62), one constructor for each row of the opcode table. -/

namespace Sys2Proof

/-- R62: the command set. R70: there are no pseudo-instructions, and R66: no hints and no no-op. -/
inductive Instr where
  /-- `INIT`, the source's initialize() (R100). -/
  | init
  /-- `RESYNC`, reserved-bit resync() (R101). -/
  | resync
  /-- `SETW fid, imm`, set-write-field(spec, value) (R86): `fid` indexes `WT` (R63), `imm` is the value (R64). -/
  | setw (fid : BitVec 4) (imm : Byte)
  /-- `GETR fid`, get-read-field(spec) (R87): `fid` indexes `RT` (R63). -/
  | getr (fid : BitVec 4)
  /-- `RDDEV`, read-device() (R104). -/
  | rddev
  /-- `WRDEV`, write-device() (R105). -/
  | wrdev
  /-- `GETMAG`, get-sensor-reading() (R124). -/
  | getmag
deriving DecidableEq, Repr

end Sys2Proof
end

