-- ==== Sys2Proof/Machine/Operands.lean ====
section
/-! DEFINITION. The operand forms of the BFX (30_encoding.md R63, R64): a field id selects a spec of a table; the
immediate is used as it stands. Field ids and names are R82's. -/

namespace Sys2Proof

/-- The number of set bits of a byte. -/
def popcount (b : Byte) : Nat :=
  (List.range 8).countP fun i => b.getLsbD i

/-- R80: the width of a spec is the number of set bits of `mask >> shift`. -/
def FieldSpec.width {n : Nat} (s : FieldSpec n) : Nat :=
  popcount (s.mask >>> s.shift.val)

/-- R82, R81: `RT` as the partial map from ids 0..15. -/
def ReadTable.rows (t : ReadTable) : Vector (Option ReadFieldSpec) 16 :=
  #v[some t.bxH, some t.bxL, some t.byH, some t.byL, some t.bzH, some t.bzL, some t.tempH, some t.tempL,
     some t.frm, some t.ch, some t.pd, some t.res1, some t.res2, some t.res3, t.id14, t.id15]

/-- R82, R81: `WT` as the partial map from ids 0..15. -/
def WriteTable.rows (t : WriteTable) : Vector (Option WriteFieldSpec) 16 :=
  #v[some t.parity, some t.addr, t.int, some t.fast, some t.lowpower, t.tempNen, t.lpPeriod, t.parityEn,
     some t.res1, some t.res2, some t.res3, t.id11, t.id12, t.id13, t.id14, t.id15]

/-- R63: the spec `RT[FID]`; `FID` is a 4-bit unsigned index. `none`: the id is unassigned. -/
def ReadTable.lookup (t : ReadTable) (fid : BitVec 4) : Option ReadFieldSpec :=
  t.rows[fid.toNat]'(by have := fid.isLt; omega)

/-- R63: the spec `WT[FID]`. -/
def WriteTable.lookup (t : WriteTable) (fid : BitVec 4) : Option WriteFieldSpec :=
  t.rows[fid.toNat]'(by have := fid.isLt; omega)

/-- R86, R82: the ids that name `W_RES1`, `W_RES2` and `W_RES3`. -/
def isReservedWriteId (fid : BitVec 4) : Bool :=
  fid == 8 || fid == 9 || fid == 10

/-- R82: the names of the read fields, by id. -/
def readFieldNames : List (String × BitVec 4) :=
  [("R_BX_H", 0), ("R_BX_L", 1), ("R_BY_H", 2), ("R_BY_L", 3), ("R_BZ_H", 4), ("R_BZ_L", 5), ("R_TEMP_H", 6),
   ("R_TEMP_L", 7), ("R_FRM", 8), ("R_CH", 9), ("R_PD", 10), ("R_RES1", 11), ("R_RES2", 12), ("R_RES3", 13)]

/-- R82: the names of the write fields, by id. -/
def writeFieldNames : List (String × BitVec 4) :=
  [("W_PARITY", 0), ("W_ADDR", 1), ("W_INT", 2), ("W_FAST", 3), ("W_LOWPOWER", 4), ("W_TEMP_NEN", 5),
   ("W_LP_PERIOD", 6), ("W_PARITY_EN", 7), ("W_RES1", 8), ("W_RES2", 9), ("W_RES3", 10)]

end Sys2Proof
end

