-- ==== Sys2Proof/WellFormed.lean ====
section
/-! DEFINITION. What makes a mask table (40_mask_table.md R81) and a command (30_encoding.md R63, R66) well-formed.

`TW1`, `TW2` and `TW5` hold by the types of Config.lean for every table the machine can hold; Machine/Tables.lean
checks them, and all the others, when it builds a table from raw numbers. -/

namespace Sys2Proof

/-- R81 `TW3` for one entry: the mask is one run of ones that starts at bit `shift`. Computed on numbers, so that a run
that would not fit in the byte fails. -/
abbrev FieldSpec.isRun {n : Nat} (s : FieldSpec n) : Prop :=
  s.mask ≠ 0 ∧ s.mask.toNat = (2 ^ s.width - 1) * 2 ^ s.shift.val

/-- R81 `TW4` for two entries of one table: on one byte their masks share no bit. -/
abbrev FieldSpec.disjoint {n : Nat} (s t : FieldSpec n) : Prop :=
  s.byteIndex = t.byteIndex → s.mask &&& t.mask = 0

/-- R81 `TW3`, over the rows of one table. -/
abbrev rowsAreRuns {n : Nat} (rows : Vector (Option (FieldSpec n)) 16) : Prop :=
  ∀ i : Fin 16, ∀ s ∈ rows[i], s.isRun

/-- R81 `TW4`, over the rows of one table. -/
abbrev rowsDisjoint {n : Nat} (rows : Vector (Option (FieldSpec n)) 16) : Prop :=
  ∀ i j : Fin 16, i ≠ j → ∀ s ∈ rows[i], ∀ t ∈ rows[j], s.disjoint t

/-- R81 `TW3` run. -/
abbrev MaskTable.tw3 (t : MaskTable) : Prop := rowsAreRuns t.rt.rows ∧ rowsAreRuns t.wt.rows

/-- R81 `TW4` disjoint. -/
abbrev MaskTable.tw4 (t : MaskTable) : Prop := rowsDisjoint t.rt.rows ∧ rowsDisjoint t.wt.rows

/-- R81 `TW6` axis widths. -/
abbrev MaskTable.tw6 (t : MaskTable) : Prop :=
  t.rt.bxH.width = 8 ∧ t.rt.byH.width = 8 ∧ t.rt.bzH.width = 8 ∧
  t.rt.bxL.width = 4 ∧ t.rt.byL.width = 4 ∧ t.rt.bzL.width = 4

/-- R81 `TW7` echo widths. -/
abbrev MaskTable.tw7 (t : MaskTable) : Prop :=
  t.rt.res1.width = t.wt.res1.width ∧ t.rt.res2.width = t.wt.res2.width ∧ t.rt.res3.width = t.wt.res3.width

/-- R81: the table passes every check. -/
abbrev MaskTable.wf (t : MaskTable) : Prop := t.tw3 ∧ t.tw4 ∧ t.tw6 ∧ t.tw7

/-- A configuration is well-formed when its table is: every `FMT` (R5) and every `INIT_ADDR_VALUE` (R100: a wide one is
truncated by MERGE) is admitted. -/
abbrev Config.wf (c : Config) : Prop := c.table.wf

/-- R63, R66: a command is well-formed when its field id has an entry in the table it indexes. -/
def Instr.wellFormed (c : Config) : Instr → Bool
  | .init => true
  | .resync => true
  | .setw fid _ => (c.table.wt.lookup fid).isSome
  | .getr fid => (c.table.rt.lookup fid).isSome
  | .rddev => true
  | .wrdev => true
  | .getmag => true

end Sys2Proof
end

