-- ==== Sys2Proof/Machine/Tables.lean ====
section
/-! DEFINITION. The default mask table (40_mask_table.md R82) and the default configuration (00_scope.md R5); and the
builder that checks a table given as raw numbers once, when it is built, and refuses one that fails (R81). -/

namespace Sys2Proof

/-- R82: the default read table. Only `R_BX_H` and `R_BX_L` rest on the source; the other rows are the spec's own general
knowledge (GK1). -/
def ReadTable.default : ReadTable where
  bxH := ⟨0, 0xFF, 0⟩
  bxL := ⟨4, 0xF0, 4⟩
  byH := ⟨1, 0xFF, 0⟩
  byL := ⟨4, 0x0F, 0⟩
  bzH := ⟨2, 0xFF, 0⟩
  bzL := ⟨5, 0x0F, 0⟩
  tempH := ⟨3, 0xF0, 4⟩
  tempL := ⟨6, 0xFF, 0⟩
  frm := ⟨3, 0x0C, 2⟩
  ch := ⟨3, 0x03, 0⟩
  pd := ⟨5, 0x10, 4⟩
  res1 := ⟨7, 0x18, 3⟩
  res2 := ⟨8, 0xFF, 0⟩
  res3 := ⟨9, 0x1F, 0⟩
  id14 := none
  id15 := none

/-- R82: the default write table, the optional rows included (GK2). -/
def WriteTable.default : WriteTable where
  parity := ⟨1, 0x80, 7⟩
  addr := ⟨1, 0x60, 5⟩
  int := some ⟨1, 0x04, 2⟩
  fast := ⟨1, 0x02, 1⟩
  lowpower := ⟨1, 0x01, 0⟩
  tempNen := some ⟨3, 0x80, 7⟩
  lpPeriod := some ⟨3, 0x40, 6⟩
  parityEn := some ⟨3, 0x20, 5⟩
  res1 := ⟨1, 0x18, 3⟩
  res2 := ⟨2, 0xFF, 0⟩
  res3 := ⟨3, 0x1F, 0⟩
  id11 := none
  id12 := none
  id13 := none
  id14 := none
  id15 := none

/-- R5, R82: the default `MASK_TABLE`. -/
def MaskTable.default : MaskTable := ⟨ReadTable.default, WriteTable.default⟩

/-- R5: every parameter that has a default at its default: `FMT` binary32 (D7), `INIT_ADDR_VALUE` 0 (D8). -/
def Config.default : Config where
  table := MaskTable.default
  fmt := .binary32
  initAddr := 0

/-- R81: the checks by name. -/
inductive TableCheck where
  | index
  | shift
  | run
  | disjoint
  | names
  | axisWidths
  | echoWidths
deriving DecidableEq, Repr

/-- A table entry before it is checked: three numbers. -/
structure RawSpec where
  byteIndex : Nat
  mask : Nat
  shift : Nat
deriving DecidableEq, Repr

/-- R81 `TW1`, `TW2` and, for a mask wider than the byte of R80, `TW3`. -/
def RawSpec.check (n : Nat) (r : RawSpec) : Except TableCheck (FieldSpec n) :=
  if hi : r.byteIndex < n then
    if hs : r.shift < 8 then
      if r.mask < 256 then .ok ⟨⟨r.byteIndex, hi⟩, BitVec.ofNat 8 r.mask, ⟨r.shift, hs⟩⟩ else .error .run
    else .error .shift
  else .error .index

/-- R81 `TW5`: a required entry must be there. -/
def RawSpec.required (n : Nat) : Option RawSpec → Except TableCheck (FieldSpec n)
  | none => .error .names
  | some r => r.check n

/-- An entry that a table may leave out. -/
def RawSpec.optional (n : Nat) : Option RawSpec → Except TableCheck (Option (FieldSpec n))
  | none => .ok none
  | some r => (r.check n).map some

/-- R81: the read table of a partial map from ids to raw entries. -/
def ReadTable.build (raw : Vector (Option RawSpec) 16) : Except TableCheck ReadTable := do
  return {
    bxH := ← RawSpec.required 10 raw[0], bxL := ← RawSpec.required 10 raw[1]
    byH := ← RawSpec.required 10 raw[2], byL := ← RawSpec.required 10 raw[3]
    bzH := ← RawSpec.required 10 raw[4], bzL := ← RawSpec.required 10 raw[5]
    tempH := ← RawSpec.required 10 raw[6], tempL := ← RawSpec.required 10 raw[7]
    frm := ← RawSpec.required 10 raw[8], ch := ← RawSpec.required 10 raw[9]
    pd := ← RawSpec.required 10 raw[10], res1 := ← RawSpec.required 10 raw[11]
    res2 := ← RawSpec.required 10 raw[12], res3 := ← RawSpec.required 10 raw[13]
    id14 := ← RawSpec.optional 10 raw[14], id15 := ← RawSpec.optional 10 raw[15] }

/-- R81: the write table of a partial map from ids to raw entries. -/
def WriteTable.build (raw : Vector (Option RawSpec) 16) : Except TableCheck WriteTable := do
  return {
    parity := ← RawSpec.required 4 raw[0], addr := ← RawSpec.required 4 raw[1]
    int := ← RawSpec.optional 4 raw[2], fast := ← RawSpec.required 4 raw[3]
    lowpower := ← RawSpec.required 4 raw[4], tempNen := ← RawSpec.optional 4 raw[5]
    lpPeriod := ← RawSpec.optional 4 raw[6], parityEn := ← RawSpec.optional 4 raw[7]
    res1 := ← RawSpec.required 4 raw[8], res2 := ← RawSpec.required 4 raw[9]
    res3 := ← RawSpec.required 4 raw[10], id11 := ← RawSpec.optional 4 raw[11]
    id12 := ← RawSpec.optional 4 raw[12], id13 := ← RawSpec.optional 4 raw[13]
    id14 := ← RawSpec.optional 4 raw[14], id15 := ← RawSpec.optional 4 raw[15] }

/-- R81: "A model checks this once, when it builds the table, and refuses a table that fails", by the first failed
check's name. -/
def MaskTable.build (rt wt : Vector (Option RawSpec) 16) : Except TableCheck MaskTable := do
  let t : MaskTable := ⟨← ReadTable.build rt, ← WriteTable.build wt⟩
  if ¬ t.tw3 then .error .run
  else if ¬ t.tw4 then .error .disjoint
  else if ¬ t.tw6 then .error .axisWidths
  else if ¬ t.tw7 then .error .echoWidths
  else .ok t

end Sys2Proof
end

