-- ==== Sys2Proof/Decode.lean ====
section
/-! DEFINITION. The decoder (30_encoding.md R61 to R67), total on every 16-bit word and rejecting by name, and after it
the encoder, written from the same tables. Both depend on the mask table only through which field ids are assigned. -/

namespace Sys2Proof

/-- R66: why a word is illegal. The machine raises one fault for all of them. -/
inductive Illegal where
  /-- OP is 0x0 or 0x8 to 0xF. -/
  | opcode
  /-- A reserved operand bit is not zero (R65). -/
  | reservedBits
  /-- SETW with an `FID` that `WT` does not assign. -/
  | unassignedWriteField
  /-- GETR with an `FID` that `RT` does not assign. -/
  | unassignedReadField
deriving DecidableEq, Repr

/-- R61: bits 15:12. -/
def opField (w : CmdWord) : BitVec 4 := w.extractLsb' 12 4

/-- R61: bits 11:8. -/
def fidField (w : CmdWord) : BitVec 4 := w.extractLsb' 8 4

/-- R61: bits 7:0. -/
def immField (w : CmdWord) : Byte := w.extractLsb' 0 8

/-- R65: a command without operands has bits 11:0 zero. -/
def decodeFixed (w : CmdWord) (i : Instr) : Except Illegal Instr :=
  if fidField w = 0 ∧ immField w = 0 then .ok i else .error .reservedBits

/-- R63, R67: SETW. -/
def decodeSetw (c : Config) (w : CmdWord) : Except Illegal Instr :=
  if (c.table.wt.lookup (fidField w)).isSome then .ok (.setw (fidField w) (immField w))
  else .error .unassignedWriteField

/-- R63, R65, R67: GETR. -/
def decodeGetr (c : Config) (w : CmdWord) : Except Illegal Instr :=
  if immField w ≠ 0 then .error .reservedBits
  else if (c.table.rt.lookup (fidField w)).isSome then .ok (.getr (fidField w))
  else .error .unassignedReadField

/-- R67: the decoder, by the opcode map of R62. -/
def decode (c : Config) (w : CmdWord) : Except Illegal Instr :=
  match (opField w).toNat with
  | 1 => decodeFixed w .init
  | 2 => decodeFixed w .resync
  | 3 => decodeSetw c w
  | 4 => decodeGetr c w
  | 5 => decodeFixed w .rddev
  | 6 => decodeFixed w .wrdev
  | 7 => decodeFixed w .getmag
  | _ => .error .opcode

/-- R61: a word from its three fields. -/
def fieldsWord (op fid : BitVec 4) (imm : Byte) : CmdWord := op ++ fid ++ imm

/-- R62: the word of a command. -/
def encode : Instr → CmdWord
  | .init => fieldsWord 1 0 0
  | .resync => fieldsWord 2 0 0
  | .setw fid imm => fieldsWord 3 fid imm
  | .getr fid => fieldsWord 4 fid 0
  | .rddev => fieldsWord 5 0 0
  | .wrdev => fieldsWord 6 0 0
  | .getmag => fieldsWord 7 0 0

/-- R62: the `match` column of a command's row. -/
def Instr.matchBits : Instr → CmdWord
  | .init => 0x1000
  | .resync => 0x2000
  | .setw _ _ => 0x3000
  | .getr _ => 0x4000
  | .rddev => 0x5000
  | .wrdev => 0x6000
  | .getmag => 0x7000

/-- R62: the `mask` column of a command's row. -/
def Instr.maskBits : Instr → CmdWord
  | .init => 0xFFFF
  | .resync => 0xFFFF
  | .setw _ _ => 0xF000
  | .getr _ => 0xF0FF
  | .rddev => 0xFFFF
  | .wrdev => 0xFFFF
  | .getmag => 0xFFFF

/-- The host's reading of an opcode-table word: what the decoder reads under the default configuration (R68: every
command is exactly 16 bits, so a word with a bit above bit 15 is none). -/
def decodeTableWord (nbits w : Nat) : Option Instr :=
  if w % 2 ^ nbits < 2 ^ 16 then (decode Config.default (BitVec.ofNat 16 (w % 2 ^ nbits))).toOption else none

end Sys2Proof
end

