-- ==== Sys2Proof/Machine/Float.lean ====
section
/-! DEFINITION. IEEE 754 values of the two formats of 42_conversion.md R122, as bit patterns, and the rounding
`RNE_FMT` of 00_scope.md R9: the exact rational to the nearest value of the format, ties to even. -/

namespace Sys2Proof

/-- A value of format `FMT` (R71: "`FMT` bit patterns"). -/
inductive FmtVal where
  | b32 (bits : BitVec 32)
  | b64 (bits : BitVec 64)
deriving DecidableEq, Repr

/-- The format a pattern belongs to. -/
def FmtVal.fmt : FmtVal → Fmt
  | .b32 _ => .binary32
  | .b64 _ => .binary64

/-- IEEE 754: the number of significand bits, the hidden one included. -/
def Fmt.precision : Fmt → Nat
  | .binary32 => 24
  | .binary64 => 53

/-- IEEE 754: the width of the exponent field. -/
def Fmt.expBits : Fmt → Nat
  | .binary32 => 8
  | .binary64 => 11

/-- The exponent of the format's smallest subnormal: its values are whole multiples of 2 to this power. -/
def Fmt.minExp (f : Fmt) : Int :=
  3 - 2 ^ (f.expBits - 1) - f.precision

/-- The magnitude bits of infinity: exponent field all ones, fraction zero. -/
def Fmt.infMag (f : Fmt) : Nat :=
  (2 ^ f.expBits - 1) * 2 ^ (f.precision - 1)

/-- The pattern with the given sign bit and magnitude bits (exponent and fraction fields read as one number). -/
def Fmt.pattern : Fmt → Bool → Nat → FmtVal
  | .binary32, neg, mag => .b32 (BitVec.ofBool neg ++ BitVec.ofNat 31 mag)
  | .binary64, neg, mag => .b64 (BitVec.ofBool neg ++ BitVec.ofNat 63 mag)

/-- The sign bit of a pattern. -/
def FmtVal.sign : FmtVal → Bool
  | .b32 b => b.msb
  | .b64 b => b.msb

/-- The magnitude bits of a pattern. -/
def FmtVal.mag : FmtVal → Nat
  | .b32 b => b.toNat % 2 ^ 31
  | .b64 b => b.toNat % 2 ^ 63

/-- Neither an infinity nor a NaN. -/
def FmtVal.isFinite (v : FmtVal) : Bool := decide (v.mag < v.fmt.infMag)

/-- A finite number whose exponent field is not zero. -/
def FmtVal.isNormal (v : FmtVal) : Bool := v.isFinite && decide (2 ^ (v.fmt.precision - 1) ≤ v.mag)

/-- `m` times 2 to the power `e`, exactly, as a numerator and a denominator. -/
def scaleTwo (m : Nat) (e : Int) : Nat × Nat :=
  if 0 ≤ e then (m * 2 ^ e.toNat, 1) else (m, 2 ^ (-e).toNat)

/-- The magnitude a finite pattern stands for: a subnormal's fraction, or a normal's with the hidden bit, scaled. -/
def Fmt.magFrac (f : Fmt) (mag : Nat) : Nat × Nat :=
  let top := 2 ^ (f.precision - 1)
  if mag < top then scaleTwo mag f.minExp
  else scaleTwo (mag % top + top) (f.minExp + (mag / top - 1 : Nat))

/-- The exact real a finite pattern stands for, as a numerator. -/
def FmtVal.num (v : FmtVal) : Int :=
  if v.sign then - ((v.fmt.magFrac v.mag).1 : Int) else ((v.fmt.magFrac v.mag).1 : Int)

/-- The exact real a finite pattern stands for, as a denominator. -/
def FmtVal.den (v : FmtVal) : Nat := (v.fmt.magFrac v.mag).2

/-- The exact real a finite pattern stands for. -/
def FmtVal.value (v : FmtVal) : Rat := mkRat v.num v.den

/-- `n / d` rounded to the nearest whole number, ties to even. -/
def rneNat (n d : Nat) : Nat :=
  if 2 * (n % d) < d then n / d
  else if d < 2 * (n % d) then n / d + 1
  else n / d + (n / d) % 2

/-- The whole `k` with `2 ^ k ≤ n / d < 2 ^ (k + 1)`, for positive `n` and `d`. -/
def floorLog2 (n d : Nat) : Int :=
  if d ≤ n then Nat.log2 (n / d) else - (Nat.log2 ((d - 1) / n) + 1 : Nat)

/-- The exponent of the unit in the last place of the format at the positive rational `n / d`. -/
def Fmt.ulpExp (f : Fmt) (n d : Nat) : Int :=
  max f.minExp (floorLog2 n d - (f.precision - 1 : Nat))

/-- The magnitude bits of the positive rational `n / d` rounded to the format. Counting patterns upward from zero, the
significand found at exponent `e` lies `e - minExp` binades up, and a carry out of it runs into the exponent field. Past
the largest finite value it is infinity. -/
def Fmt.roundMag (f : Fmt) (n d : Nat) : Nat :=
  let e := f.ulpExp n d
  let m := if 0 ≤ e then rneNat n (d * 2 ^ e.toNat) else rneNat (n * 2 ^ (-e).toNat) d
  min ((e - f.minExp).toNat * 2 ^ (f.precision - 1) + m) f.infMag

/-- R9 `RNE_FMT(q)` for the exact real `q = n / d`, `d` positive; zero is +0. -/
def rne (f : Fmt) (n : Int) (d : Nat) : FmtVal :=
  if n = 0 then f.pattern false 0 else f.pattern (decide (n < 0)) (f.roundMag n.natAbs d)

end Sys2Proof
end

