-- ==== Sys2Proof/Machine/State.lean ====
section
/-! DEFINITION. The state of the machine: every row of 10_state.md R33, and beside it, as plain data, the two other agents
of R20 as far as the BFX meets them: what the host and the bus collaborator will do next (`events`), the bus requests
issued (`requests`) and the responses sent (`responses`). -/

namespace Sys2Proof.Machine

/-- R23 `PHASE`. -/
inductive Phase where
  | uninit
  | ready
deriving DecidableEq, Repr

/-- R142: the values of the `FAULT` register, with `NONE` (R29). These are register contents, not stops of the model:
a fault of the BFX is an entry the machine takes (R143). -/
inductive Cause where
  | none
  | illegalCommand
  | commandWhileBusy
  | notInitialized
  | unsyncedWrite
deriving DecidableEq, Repr

/-- R24 `PEND` when it is not `None`. Each constructor is one of the records `cmd`, `stage`, `kind` that a command can be
in, with the snapshot `wsnap` where the kind is `WRITE`; the four parts are read off by the functions of Flags.lean. A record that
no command makes (RDDEV at stage 1, say) is no value of this type. -/
inductive Pending where
  | initRead
  | initWrite (wsnap : WriteFrame)
  | resyncRead
  | rddevRead
  | wrdevWrite (wsnap : WriteFrame)
  | getmagRead
deriving DecidableEq, Repr

/-- R24 `PEND.kind`. -/
inductive TransferKind where
  | read
  | write
deriving DecidableEq, Repr

/-- R44: a request the BFX makes of the bus collaborator. It carries `ADDR` (R30), and a write the snapshot (R46). -/
inductive BusRequest where
  | read (addr : Byte)
  | write (addr : Byte) (wsnap : WriteFrame)
deriving DecidableEq, Repr

/-- R44: the answers of the bus collaborator: `Ok(b)` to a read, `Ok` to a write, `Err(BusError)` to either. That it never
answers is that no such event comes. -/
inductive BusAnswer where
  | readOk (b : ReadFrame)
  | writeOk
  | err
deriving DecidableEq, Repr

/-- R141: the status of a response. -/
inductive Status where
  | ok
  | busError
deriving DecidableEq, Repr

/-- R27, R71: the payload of a response: empty, a `u8` (GETR), or the triple `(x, y, z)` (GETMAG). -/
inductive Payload where
  | empty
  | byte (d : Byte)
  | magnet (x y z : FmtVal)
deriving DecidableEq, Repr

/-- R71: a response is a status and a payload. -/
structure Response where
  status : Status
  payload : Payload
deriving DecidableEq, Repr

/-- R167, R44: what reaches the BFX from outside, one event at a time. -/
inductive Event where
  /-- The host issues a command word (R60). -/
  | command (w : CmdWord)
  /-- The bus collaborator answers its request number `request`, counted from 0 in the order the requests were issued. -/
  | answer (request : Nat) (a : BusAnswer)
  /-- The host resets the BFX with the address `BUS_ADDR` (R160). -/
  | reset (busAddr : Byte)
deriving DecidableEq, Repr

/-- The whole machine. The first nine fields are R33, row by row; the rest is the model's own (log 2, 6, 7). -/
structure State where
  /-- R21 `RF`. -/
  rf : ReadFrame
  /-- R22 `WF`. -/
  wf : WriteFrame
  /-- R23 `PHASE`. -/
  phase : Phase
  /-- R24 `PEND`. -/
  pend : Option Pending
  /-- R26 `LFC`. -/
  lfc : BitVec Config.lfcW
  /-- R28 `RSV_SYNC`. -/
  rsvSync : Bool
  /-- R29 `FAULT`. -/
  fault : Cause
  /-- R35 `FAULT_CMD`. -/
  faultCmd : CmdWord
  /-- R30 `ADDR`. -/
  addr : Byte
  /-- R34: the configuration, not state of the BFX. R34 has a model take it as an argument of the step relation; the step
  has one argument, so it stands here, and no step changes it. -/
  cfg : Config
  /-- What the host and the bus collaborator do, oldest first. -/
  events : List Event
  /-- The bus requests issued so far, oldest first. -/
  requests : List BusRequest
  /-- The responses sent to the host so far, oldest first. -/
  responses : List Response
deriving DecidableEq, Repr

/-- A fault of the MODEL, a step that stops: there is none. Every fault of the BFX (R142) is entered as R143 describes, in
a next state; a transfer that is never answered leaves the machine waiting (R140, "This is not a fault"). Safe: no run of
the hardware is cut short. -/
inductive Fault where
deriving DecidableEq, Repr

/-- A refusal of the model. -/
inductive Refusal where
  /-- Raised by an arm of `exec` for an instruction without a meaning. No arm does. Safe. -/
  | notModelled (mnemonic : String)
deriving DecidableEq, Repr

/-- The machine right after reset (R160, R33) with `BUS_ADDR` the parameter without a default, the default configuration
(R5), and nothing yet issued, requested or answered. -/
def State.reset : State where
  rf := Vector.replicate 10 0
  wf := Vector.replicate 4 0
  phase := .uninit
  pend := none
  lfc := 0
  rsvSync := false
  fault := .none
  faultCmd := 0x0000
  addr := Config.busAddr
  cfg := Config.default
  events := []
  requests := []
  responses := []

end Sys2Proof.Machine
end

