-- ==== Sys2Proof/Machine/Flags.lean ====
section
/-! DEFINITION. The status bits of the BFX, which are all the flags it has (10_state.md R32): `PHASE`, `RSV_SYNC`, busy
and `FAULT`. There are no condition codes and conversion sets no flag. The parts of `PEND` are R24's; status and cause
codes are 60_exceptions.md R141 and R142. -/

namespace Sys2Proof.Machine

/-- R24 `PEND.cmd`: the command in flight. -/
def Pending.cmd : Pending → Instr
  | .initRead => .init
  | .initWrite _ => .init
  | .resyncRead => .resync
  | .rddevRead => .rddev
  | .wrdevWrite _ => .wrdev
  | .getmagRead => .getmag

/-- R24, R25 `PEND.stage`: INIT uses stage 0 for its read and stage 1 for its write; every other command has stage 0. -/
def Pending.stage : Pending → Nat
  | .initRead => 0
  | .initWrite _ => 1
  | .resyncRead => 0
  | .rddevRead => 0
  | .wrdevWrite _ => 0
  | .getmagRead => 0

/-- R24 `PEND.kind`. -/
def Pending.kind : Pending → TransferKind
  | .initRead => .read
  | .initWrite _ => .write
  | .resyncRead => .read
  | .rddevRead => .read
  | .wrdevWrite _ => .write
  | .getmagRead => .read

/-- R24 `PEND.wsnap`: the snapshot a write holds (R46). -/
def Pending.wsnap : Pending → Option WriteFrame
  | .initRead => none
  | .initWrite w => some w
  | .resyncRead => none
  | .rddevRead => none
  | .wrdevWrite w => some w
  | .getmagRead => none

/-- The request of a pending transfer to the address `addr`. -/
def Pending.request (addr : Byte) (p : Pending) : BusRequest :=
  match p.wsnap with
  | none => .read addr
  | some w => .write addr w

/-- R24, R32: the BFX is busy exactly while `PEND` is not `None`. -/
def State.busy (s : State) : Bool := s.pend.isSome

/-- R29, R143: the faulted state. -/
def State.faulted (s : State) : Bool := s.fault != .none

/-- R144: a word issued now is neither dropped (check 1) nor a busy fault (check 2). -/
abbrev State.idle (s : State) : Prop := s.fault = .none ∧ s.pend = none

/-- R28: the merges of a resync are complete. -/
def setSync (s : State) : State := { s with rsvSync := true }

/-- R28: a bus write completed `Ok`, or SETW wrote a reserved field. -/
def clearSync (s : State) : State := { s with rsvSync := false }

/-- R23: INIT completed `OK`. -/
def setReady (s : State) : State := { s with phase := .ready }

/-- R142: the code of a cause. -/
def Cause.code : Cause → Nat
  | .none => 0
  | .illegalCommand => 1
  | .commandWhileBusy => 2
  | .notInitialized => 3
  | .unsyncedWrite => 4

/-- R141: the code of a status. -/
def Status.code : Status → Nat
  | .ok => 0
  | .busError => 1

end Sys2Proof.Machine
end

