-- ==== Sys2Proof/Machine/Ops.lean ====
section
/-! DEFINITION. The operations the commands share: the two field primitives (40_mask_table.md R84, R85), the frames, the
bus requests (20_memory.md R44 to R46), responses (10_state.md R27), taking a fault (60_exceptions.md R143), reset, which
is the only return from one (R146, 70_reset_and_hazards.md R160), and the acceptance checks (R144). -/

namespace Sys2Proof.Machine

/-- R84 `EXTRACT(frame, spec)`. -/
def extract {n : Nat} (frame : Vector Byte n) (s : FieldSpec n) : Byte :=
  (frame[s.byteIndex] &&& s.mask) >>> s.shift.val

/-- R85: the new byte MERGE puts at `spec.byte_index`, from the old one; all at 8 bits (R7). -/
def mergeByte (old mask : Byte) (shift : Fin 8) (v : Byte) : Byte :=
  (old &&& ~~~mask) ||| ((v <<< shift.val) &&& mask)

/-- R85 `MERGE(frame, spec, v)`. -/
def merge {n : Nat} (frame : Vector Byte n) (s : FieldSpec n) (v : Byte) : Vector Byte n :=
  frame.set s.byteIndex.val (mergeByte frame[s.byteIndex] s.mask s.shift v) s.byteIndex.isLt

/-- R22: the only way `WF` is written: one MERGE into one field. -/
def mergeField (spec : WriteFieldSpec) (v : Byte) (s : State) : State :=
  { s with wf := merge s.wf spec v }

/-- R45 `RF <- b`: a successful bus read replaces all ten bytes at once. -/
def replaceReadFrame (b : ReadFrame) (s : State) : State := { s with rf := b }

/-- R27 `respond(status, payload)`: the response goes to the host; the BFX keeps no copy of it. -/
def respond (r : Response) (s : State) : State := { s with responses := s.responses ++ [r] }

/-- R71: the responses without a payload. -/
def Response.done : Response := ⟨.ok, .empty⟩

/-- R71: "A response with status `BUS_ERROR` carries no payload". -/
def Response.failed : Response := ⟨.busError, .empty⟩

/-- R25: "Advancing" is completing the command and returning to idle. -/
def release (s : State) : State := { s with pend := none }

/-- Sends the request of the pending transfer `p` (R44) and records `p` in `PEND` (R24). -/
def issueTransfer (p : Pending) (s : State) : State :=
  { s with pend := some p, requests := s.requests ++ [p.request s.addr] }

/-- R9, R44 `BusRead(ADDR)` for the transfer `p`. -/
def busRead (p : Pending) (s : State) : State := issueTransfer p s

/-- R46 `BusWrite(ADDR, WF)`: the snapshot of `WF` is taken at issue and stored in `PEND`. -/
def busWrite (p : WriteFrame → Pending) (s : State) : State := issueTransfer (p s.wf) s

/-- R143 `raise Fault(c)` for the command word `w`: nothing else changes, no bus request, no response. -/
def raiseFault (c : Cause) (w : CmdWord) (s : State) : State := { s with fault := c, faultCmd := w }

/-- R160: reset with the address `a`. It never touches the bus; a pending transfer is abandoned. The configuration and
the other agents' records are no state of the BFX and stay. -/
def resetWith (a : Byte) (s : State) : State :=
  { s with
    rf := Vector.replicate 10 0
    wf := Vector.replicate 4 0
    phase := .uninit
    pend := none
    lfc := 0
    rsvSync := false
    fault := .none
    faultCmd := 0x0000
    addr := a }

/-- R144, checks 1 and 2 for the word `w`: faulted, the word is not accepted and nothing happens; busy, it faults
`COMMAND_WHILE_BUSY`; otherwise `k` goes on with the later checks. -/
def whenFree (w : CmdWord) (k : State → State) (s : State) : State :=
  if s.faulted then s else if s.busy then raiseFault .commandWhileBusy w s else k s

/-- R45 and the `Err` rows of R145: the answer `a` to a pending read. On `Ok(b)` the frame is replaced and the command's
own completion `k` goes on; on `Err` only `PEND` is cleared and the error passed on. An answer to a write is no answer to
a read (log 5). -/
def onReadAnswer (a : BusAnswer) (k : State → State) (s : State) : State :=
  match a with
  | .readOk b => k (replaceReadFrame b s)
  | .err => respond Response.failed (release s)
  | .writeOk => s

/-- R46 and the `Err` rows of R145: the answer `a` to a pending write. On `Ok`, `RSV_SYNC` is cleared. -/
def onWriteAnswer (a : BusAnswer) (k : State → State) (s : State) : State :=
  match a with
  | .writeOk => k (clearSync s)
  | .err => respond Response.failed (release s)
  | .readOk _ => s

end Sys2Proof.Machine
end

