-- ==== Sys2Proof/Machine/Fields.lean ====
section
/-! DEFINITION. The field commands (40_mask_table.md R86, R87): SETW and GETR. They touch no bus and complete at once. -/

namespace Sys2Proof.Machine

/-- R86: a write into `W_RES1`, `W_RES2` or `W_RES3` cancels the resync. -/
def clearSyncIfReserved (fid : BitVec 4) (s : State) : State :=
  if isReservedWriteId fid then clearSync s else s

/-- R86 SETW: set-write-field. An unassigned field id makes the word illegal (R66). -/
def execSetw (fid : BitVec 4) (imm : Byte) (s : State) : Host.Outcome State Fault Refusal :=
  .next (whenFree (encode (.setw fid imm)) (fun s =>
    match s.cfg.table.wt.lookup fid with
    | none => raiseFault .illegalCommand (encode (.setw fid imm)) s
    | some spec => respond Response.done (clearSyncIfReserved fid (mergeField spec imm s))) s)

/-- R87 GETR: get-read-field. -/
def execGetr (fid : BitVec 4) (s : State) : Host.Outcome State Fault Refusal :=
  .next (whenFree (encode (.getr fid)) (fun s =>
    match s.cfg.table.rt.lookup fid with
    | none => raiseFault .illegalCommand (encode (.getr fid)) s
    | some spec => respond ⟨.ok, .byte (extract s.rf spec)⟩ s) s)

end Sys2Proof.Machine
end

