-- ==== Sys2Proof/Machine/Magnet.lean ====
section
/-! DEFINITION. The conversion pipeline and GETMAG (42_conversion.md R120 to R125). -/

namespace Sys2Proof.Machine

/-- R8 `sext_16`. -/
def sext16 (v : Byte) : BitVec 16 := v.signExtend 16

/-- R8 `zext_16`. -/
def zext16 (v : Byte) : BitVec 16 := v.zeroExtend 16

/-- R120 `RECONSTRUCT(hi, lo)`, as its `u16` pattern; read as an `i16` with `toInt`. -/
def reconstruct (hi lo : Byte) : BitVec 16 := (sext16 hi <<< 4) ||| zext16 lo

/-- R122 `K = RNE_FMT(0.098)`. -/
def scaleConst (f : Fmt) : FmtVal := rne f 98 1000

/-- R122 `SCALE(r) = RNE_FMT(toFMT(r) * K)`, the exact product rounded once. `toFMT(r)` is exact, so the product of the
reals is `r` times the exact value of `K`. -/
def scale (f : Fmt) (r : BitVec 16) : FmtVal := rne f (r.toInt * (scaleConst f).num) (scaleConst f).den

/-- R124, R125: one axis, through the three stages EXTRACT, RECONSTRUCT, SCALE. -/
def axisValue (f : Fmt) (rf : ReadFrame) (hi lo : ReadFieldSpec) : FmtVal :=
  scale f (reconstruct (extract rf hi) (extract rf lo))

/-- R124, R125: the converter as a pure function of one `RF` snapshot, in the axis order x, y, z. -/
def magnetVals (c : Config) (rf : ReadFrame) : Payload :=
  .magnet (axisValue c.fmt rf c.table.rt.bxH c.table.rt.bxL)
    (axisValue c.fmt rf c.table.rt.byH c.table.rt.byL)
    (axisValue c.fmt rf c.table.rt.bzH c.table.rt.bzL)

/-- R124 GETMAG: get-sensor-reading, issue. Before INIT has completed `OK` it faults and sends nothing. -/
def execGetmag (s : State) : Host.Outcome State Fault Refusal :=
  .next (whenFree (encode .getmag) (fun s =>
    match s.phase with
    | .uninit => raiseFault .notInitialized (encode .getmag) s
    | .ready => busRead .getmagRead s) s)

/-- R124, completion on `Ok(b)`: convert the frame just read. -/
def getmagDone (s : State) : State := respond ⟨.ok, magnetVals s.cfg s.rf⟩ (release s)

end Sys2Proof.Machine
end

