-- ==== Sys2Proof/Machine/Transfers.lean ====
section
/-! DEFINITION. The driver operations with bus transfers (41_driver_ops.md): INIT, RESYNC, RDDEV, WRDEV. `exec…` is the
issue part of a rule, `…Done` its completion part on `Ok`, after the shared effect of the answer (R45, R46). -/

namespace Sys2Proof.Machine

/-- R102 `ECHO()`: the three reserved fields of the frame just read, merged into the write frame. -/
def echo (s : State) : State :=
  setSync
    (mergeField s.cfg.table.wt.res3 (extract s.rf s.cfg.table.rt.res3)
      (mergeField s.cfg.table.wt.res2 (extract s.rf s.cfg.table.rt.res2)
        (mergeField s.cfg.table.wt.res1 (extract s.rf s.cfg.table.rt.res1) s)))

/-- R100: the four configuration merges of INIT. -/
def programConfig (s : State) : State :=
  mergeField s.cfg.table.wt.lowpower 1
    (mergeField s.cfg.table.wt.fast 1
      (mergeField s.cfg.table.wt.parity 1
        (mergeField s.cfg.table.wt.addr s.cfg.initAddr s)))

/-- R100 INIT: initialize, issue (stage 0). -/
def execInit (s : State) : Host.Outcome State Fault Refusal :=
  .next (whenFree (encode .init) (busRead .initRead) s)

/-- R100, completion of stage 0 on `Ok(b)`: echo, configure, and issue the write of stage 1. -/
def initReadDone (s : State) : State := busWrite .initWrite (programConfig (echo s))

/-- R100, completion of stage 1 on `Ok`. -/
def initWriteDone (s : State) : State := respond Response.done (release (setReady s))

/-- R101 RESYNC: reserved-bit resync, issue. -/
def execResync (s : State) : Host.Outcome State Fault Refusal :=
  .next (whenFree (encode .resync) (busRead .resyncRead) s)

/-- R101, completion on `Ok(b)`. -/
def resyncDone (s : State) : State := respond Response.done (release (echo s))

/-- R104 RDDEV: read-device, issue. -/
def execRddev (s : State) : Host.Outcome State Fault Refusal :=
  .next (whenFree (encode .rddev) (busRead .rddevRead) s)

/-- R104, completion on `Ok(b)`. -/
def rddevDone (s : State) : State := respond Response.done (release s)

/-- R105 WRDEV: write-device, issue. Without a resync since the last successful write it faults and sends nothing. -/
def execWrdev (s : State) : Host.Outcome State Fault Refusal :=
  .next (whenFree (encode .wrdev) (fun s =>
    if s.rsvSync then busWrite .wrdevWrite s else raiseFault .unsyncedWrite (encode .wrdev) s) s)

/-- R105, completion on `Ok`. -/
def wrdevDone (s : State) : State := respond Response.done (release s)

end Sys2Proof.Machine
end

