-- ==== Sys2Proof/Machine/Dispatch.lean ====
section
/-! DEFINITION. One arm for each command: the meaning of an accepted word (30_encoding.md R60, R62). -/

namespace Sys2Proof.Machine

def exec (i : Instr) (s : State) : Host.Outcome State Fault Refusal :=
  match i with
  | .init => Sys2Proof.Machine.execInit s
  | .resync => Sys2Proof.Machine.execResync s
  | .setw fid imm => Sys2Proof.Machine.execSetw fid imm s
  | .getr fid => Sys2Proof.Machine.execGetr fid s
  | .rddev => Sys2Proof.Machine.execRddev s
  | .wrdev => Sys2Proof.Machine.execWrdev s
  | .getmag => Sys2Proof.Machine.execGetmag s

end Sys2Proof.Machine
end

