-- ==== Sys2Proof/Machine/Events.lean ====
section
/-! DEFINITION. What one event does: a command word is decoded and executed (30_encoding.md R60), a bus answer completes
the pending transfer (20_memory.md R44 to R46), a reset resets (70_reset_and_hazards.md R160). -/

namespace Sys2Proof.Machine

/-- The event `step` takes next, and the state without it; `none` where nothing comes from outside. -/
def nextEvent (s : State) : Option (Event × State) :=
  match s.events with
  | [] => none
  | e :: rest => some (e, { s with events := rest })

/-- R144 check 3: an illegal word, after the checks for faulted and busy. -/
def execIllegal (w : CmdWord) (s : State) : Host.Outcome State Fault Refusal :=
  .next (whenFree w (raiseFault .illegalCommand w) s)

/-- R60, R144: the host issues the word `w`. Decoding has no effect, so decoding first leaves the order of R144's checks as
it is: every meaning, and `execIllegal`, begins with checks 1 and 2 (`whenFree`). -/
def issueWord (w : CmdWord) (s : State) : Host.Outcome State Fault Refusal :=
  match decode s.cfg w with
  | .error _ => execIllegal w s
  | .ok i => exec i s

/-- The completion of the pending transfer `p` on the answer `a`: R100, R101, R104, R105, R124. -/
def complete (p : Pending) (a : BusAnswer) (s : State) : State :=
  match p with
  | .initRead => onReadAnswer a initReadDone s
  | .initWrite _ => onWriteAnswer a initWriteDone s
  | .resyncRead => onReadAnswer a resyncDone s
  | .rddevRead => onReadAnswer a rddevDone s
  | .wrdevWrite _ => onWriteAnswer a wrdevDone s
  | .getmagRead => onReadAnswer a getmagDone s

/-- The bus collaborator answers request number `n`. The answer is taken where that request is the pending one, which is
the latest issued (R44: at most one at a time). It is dropped in the faulted state (R143), where nothing is pending, and
where it belongs to an older request, whose transfer a reset abandoned (R160). -/
def busAnswer (n : Nat) (a : BusAnswer) (s : State) : State :=
  if s.faulted then s
  else match s.pend with
    | none => s
    | some p => if n + 1 = s.requests.length then complete p a s else s

/-- What an event does to the state it has been taken from. -/
def handleEvent (e : Event) (s : State) : Host.Outcome State Fault Refusal :=
  match e with
  | .command w => issueWord w s
  | .answer n a => .next (busAnswer n a s)
  | .reset a => .next (resetWith a s)

end Sys2Proof.Machine
end

