-- ==== Sys2Proof/Machine/Step.lean ====
section
/-! DEFINITION. One step: the next event from outside is taken and handled. With no event the BFX waits, idle or busy:
there is no time in the model (70_reset_and_hazards.md R168), and a transfer that is never answered leaves the machine
stuck, which is no fault (60_exceptions.md R140). -/

namespace Sys2Proof.Machine

def step (s : State) : Host.Outcome State Fault Refusal :=
  match nextEvent s with
  | none => .next s
  | some (e, s') => handleEvent e s'

/-- The state whose very next step takes the command word `w`: the host issues it now (R60). The BFX fetches nothing
(R50), so this is the whole of loading a program (log 2). -/
def State.withFetchWord (s : State) (nbits w : Nat) : State :=
  { s with events := .command (BitVec.ofNat 16 (w % 2 ^ nbits)) :: s.events }

end Sys2Proof.Machine
end

