-- ==== Sys2Proof/Machine/Assembler.lean ====
section
/-! DEFINITION. The listing syntax of 30_encoding.md R69: one command a line, operands by field name or id, an immediate
in decimal or 0x-hex. It makes words and is no part of the machine. What R69 leaves open is log 17. -/

namespace Sys2Proof.Machine

/-- Why a line is refused. -/
inductive AsmError where
  | unknownMnemonic
  | badOperands
  | unknownField
  | outOfRange
deriving DecidableEq, Repr

/-- R69: "Comments begin with `;`". -/
def stripComment : List Char → List Char
  | [] => []
  | c :: cs => if c = ';' then [] else c :: stripComment cs

/-- A word that has been collected, if there is one. -/
def finishedWord (cur : List Char) : List (List Char) :=
  if cur.isEmpty then [] else [cur]

/-- The words of a line: blanks separate them, and a comma is a word of its own. -/
def splitWords (cur : List Char) : List Char → List (List Char)
  | [] => finishedWord cur
  | c :: cs =>
    if c = ' ' ∨ c = '\t' then finishedWord cur ++ splitWords [] cs
    else if c = ',' then finishedWord cur ++ [','] :: splitWords [] cs
    else splitWords (cur ++ [c]) cs

/-- The value of a digit in base 10 or 16. -/
def digitValue (base : Nat) (c : Char) : Option Nat :=
  let v :=
    if '0' ≤ c ∧ c ≤ '9' then c.toNat - '0'.toNat
    else if 'a' ≤ c ∧ c ≤ 'f' then c.toNat - 'a'.toNat + 10
    else if 'A' ≤ c ∧ c ≤ 'F' then c.toNat - 'A'.toNat + 10
    else 16
  if v < base then some v else none

/-- The digits of a numeral, most significant first. -/
def digitsValue (base acc : Nat) : List Char → Option Nat
  | [] => some acc
  | c :: cs => (digitValue base c).bind fun v => digitsValue base (acc * base + v) cs

/-- R69: "decimal or 0x-hex". -/
def numeral : List Char → Option Nat
  | [] => none
  | '0' :: 'x' :: d :: ds => digitsValue 16 0 (d :: ds)
  | d :: ds => digitsValue 10 0 (d :: ds)

/-- R69: a field operand is "a … name or id 0..15"; R82 gives the names. -/
def fieldOperand (names : List (String × BitVec 4)) (word : List Char) : Except AsmError (BitVec 4) :=
  match names.lookup (String.ofList word) with
  | some id => .ok id
  | none =>
    match numeral word with
    | none => .error .unknownField
    | some n => if n < 16 then .ok (BitVec.ofNat 4 n) else .error .outOfRange

/-- R69: an immediate outside 0..255 is refused; it is not truncated. -/
def immOperand (word : List Char) : Except AsmError Byte :=
  match numeral word with
  | none => .error .badOperands
  | some n => if n < 256 then .ok (BitVec.ofNat 8 n) else .error .outOfRange

/-- The commands without operands, by mnemonic. -/
def plainMnemonics : List (String × Instr) :=
  [("INIT", .init), ("RESYNC", .resync), ("RDDEV", .rddev), ("WRDEV", .wrdev), ("GETMAG", .getmag)]

/-- One command from its mnemonic, in capitals, and its operand words. -/
def assembleCommand (mnemonic : String) (ops : List (List Char)) : Except AsmError Instr :=
  match plainMnemonics.lookup mnemonic with
  | some i => if ops = [] then .ok i else .error .badOperands
  | none =>
    if mnemonic = "SETW" then
      match ops with
      | [f, [','], v] => do return .setw (← fieldOperand writeFieldNames f) (← immOperand v)
      | _ => .error .badOperands
    else if mnemonic = "GETR" then
      match ops with
      | [f] => do return .getr (← fieldOperand readFieldNames f)
      | _ => .error .badOperands
    else .error .unknownMnemonic

/-- R69: one line of a listing; `none` for a line without a command. "Mnemonics are case-insensitive". -/
def assembleLine (line : String) : Except AsmError (Option CmdWord) :=
  match splitWords [] (stripComment line.toList) with
  | [] => .ok none
  | m :: ops => (assembleCommand (String.ofList (m.map Char.toUpper)) ops).map fun i => some (encode i)

/-- A listing, line by line. -/
def assemble : List String → Except AsmError (List CmdWord)
  | [] => .ok []
  | l :: ls => do return (← assembleLine l).toList ++ (← assemble ls)

end Sys2Proof.Machine
end

