-- ==== Sys2Proof/Safety.lean ====
section
/-! DEFINITION. What counts as a good run (70_reset_and_hazards.md R166, 60_exceptions.md R140, R143), and the standing
invariant of the machine. The spec says "A model treats every fault as a refusal of the run": the faulted state is
reachable here, and no normal end. -/

namespace Sys2Proof

/-- The bits of frame byte `i` that a row of a table covers. -/
def rowMaskAt {n : Nat} (i : Fin n) : Option (FieldSpec n) → Byte
  | none => 0
  | some s => if s.byteIndex = i then s.mask else 0

/-- The bits of write-frame byte `i` that some write field of the table covers (R31, R89). -/
def WriteTable.covered (t : WriteTable) (i : Fin 4) : Byte :=
  t.rows.toList.foldr (fun row acc => rowMaskAt i row ||| acc) 0

/-- The bits of read-frame byte `i` that some read field of the table covers (R89). -/
def ReadTable.covered (t : ReadTable) (i : Fin 10) : Byte :=
  t.rows.toList.foldr (fun row acc => rowMaskAt i row ||| acc) 0

/-- R122 `P_SCALE`'s unit in the last place of the format at the positive real `n / d`. -/
def Fmt.ulp (f : Fmt) (n d : Nat) : Rat := mkRat (scaleTwo 1 (f.ulpExp n d)).1 (scaleTwo 1 (f.ulpExp n d)).2

/-- The format's pattern with the sign bit turned over. -/
def FmtVal.neg (v : FmtVal) : FmtVal := v.fmt.pattern (!v.sign) v.mag

end Sys2Proof

namespace Sys2Proof.Machine

/-- A command word the host has still to issue. -/
def Event.isCommand : Event → Bool
  | .command _ => true
  | .answer _ _ => false
  | .reset _ => false

/-- A reset the host has still to do. -/
def Event.isReset : Event → Bool
  | .command _ => false
  | .answer _ _ => false
  | .reset _ => true

/-- The responses the host still waits for, or will wait for when it has issued what it means to issue: one for each
command word to come, and one for the pending command (R27: "Each command completes exactly once"). -/
def State.owed (s : State) : Nat := s.events.countP Event.isCommand + s.pend.toList.length

/-- R166: the run from `start` ends normally at `t`, bullet by bullet: no fault; nothing pending; every command the host
issued in the run, the one pending at its start included, has had its response; the host issues no further command. Each
response answers one command, so all are answered exactly where there are as many responses as commands: a command that a
fault turned away or a reset abandoned stays unanswered for the rest of the run (log 23). -/
def State.endsNormally (start t : State) : Prop :=
  (∃ k, Host.Core.run core k start = .next t) ∧
  t.fault = .none ∧ t.pend = none ∧
  t.responses.length = start.responses.length + start.owed ∧
  t.events.countP Event.isCommand = 0

/-- R140, R166: stuck: a transfer is pending and nothing that could end it is to come, neither the answer to it nor a
reset. -/
def State.stuck (s : State) : Prop :=
  s.fault = .none ∧ s.pend.isSome ∧
    ∀ e ∈ s.events, e.isReset = false ∧ ∀ n a, e = .answer n a → n + 1 ≠ s.requests.length

/-- The pending request is answered next, with `a`: the latest request's number, at the head of the events. -/
def State.answerNext (s : State) (p : Pending) (a : BusAnswer) (rest : List Event) : Prop :=
  s.fault = .none ∧ s.pend = some p ∧
    ∃ n, n + 1 = s.requests.length ∧ s.events = .answer n a :: rest

/-- The state with the event at its head taken. -/
def State.withEvents (s : State) (es : List Event) : State := { s with events := es }

/-- What holds of the machine in every state a run from reset can reach. -/
structure State.Inv (s : State) : Prop where
  /-- R81: the configuration's table is well-formed. -/
  tableOk : s.cfg.wf
  /-- R26: `LFC` stays 0. -/
  lfcZero : s.lfc = 0
  /-- R35: `FAULT_CMD` is written only together with `FAULT`. -/
  faultCmdZero : s.fault = .none → s.faultCmd = 0
  /-- R31: a write-frame bit that no field covers keeps its reset value 0. -/
  uncoveredZero : ∀ i : Fin 4, s.wf[i] &&& ~~~(s.cfg.table.wt.covered i) = 0
  /-- R46: the snapshot of a pending write is the write frame itself. -/
  snapshotCurrent : ∀ p w, s.pend = some p → p.wsnap = some w → w = s.wf
  /-- R24, R30, R44: the latest request issued is the pending one, and carries `ADDR`. -/
  requestPending : ∀ p, s.pend = some p → s.requests.getLast? = some (p.request s.addr)
  /-- R103: a pending write carries reserved fields populated since the last successful write. -/
  writeSynced : ∀ p, s.pend = some p → p.kind = .write → s.rsvSync = true
  /-- R124: a reading is pending only in `READY`. -/
  readingReady : s.pend = some .getmagRead → s.phase = .ready

end Sys2Proof.Machine
end

