-- ==== Sys2Proof/Certificates/Slice0/Obligations.lean ====
section
/-! DEFINITION. The statements for the provers. Each docstring names the rules of the spec it formalises and, where it
rests on a choice of the model, the log entry. -/

open Sys2Proof Sys2Proof.Machine

/-! ### Encoding -/

/-- R61 to R67: every well-formed command survives encoding, with every field id the table assigns and every immediate,
under every configuration. -/
def Obligations.DecodeEncodeRoundTrip : Prop :=
  ∀ (c : Config) (i : Instr), i.wellFormed c = true → decode c (encode i) = .ok i

/-- R65 ("No reserved bit is ignored"), R67: a word that decodes is the word of the command it decodes to, and that command
is well-formed. So `FAULT_CMD` may be written from the command (log 14). -/
def Obligations.EncodeDecodeRoundTrip : Prop :=
  ∀ (c : Config) (w : CmdWord) (i : Instr), decode c w = .ok i → encode i = w ∧ i.wellFormed c = true

/-- R62: a word selects a row exactly when `(w & mask) == match`, and for SETW and GETR passes the field-id check; the
operands are bits 11:8 and 7:0 (R61, R63, R64). -/
def Obligations.OpcodeRowsSelectByMatchAndMask : Prop :=
  ∀ (c : Config) (w : CmdWord),
    (decode c w = .ok .init ↔ w &&& 0xFFFF = 0x1000) ∧
    (decode c w = .ok .resync ↔ w &&& 0xFFFF = 0x2000) ∧
    (∀ fid imm, decode c w = .ok (.setw fid imm) ↔
      w &&& 0xF000 = 0x3000 ∧ fid = w.extractLsb' 8 4 ∧ imm = w.extractLsb' 0 8 ∧
        (c.table.wt.lookup fid).isSome = true) ∧
    (∀ fid, decode c w = .ok (.getr fid) ↔
      w &&& 0xF0FF = 0x4000 ∧ fid = w.extractLsb' 8 4 ∧ (c.table.rt.lookup fid).isSome = true) ∧
    (decode c w = .ok .rddev ↔ w &&& 0xFFFF = 0x5000) ∧
    (decode c w = .ok .wrdev ↔ w &&& 0xFFFF = 0x6000) ∧
    (decode c w = .ok .getmag ↔ w &&& 0xFFFF = 0x7000)

/-- R65, R66: the illegal words are exactly these, an idle machine answers each with the fault `ILLEGAL_COMMAND` and no
other effect, and 0x0000 is one of them. -/
def Obligations.IllegalWordsFaultWithNoOtherEffect : Prop :=
  (∀ (c : Config) (w : CmdWord),
    (∃ e, decode c w = .error e) ↔
      (let op := (w.extractLsb' 12 4).toNat
       let fid := w.extractLsb' 8 4
       (op = 0 ∨ 8 ≤ op) ∨
       ((op = 1 ∨ op = 2 ∨ op = 5 ∨ op = 6 ∨ op = 7) ∧ w.extractLsb' 0 12 ≠ 0) ∨
       (op = 4 ∧ w.extractLsb' 0 8 ≠ 0) ∨
       (op = 3 ∧ c.table.wt.lookup fid = none) ∨
       (op = 4 ∧ c.table.rt.lookup fid = none))) ∧
  (∀ (s : State) w e rest, s.idle → s.events = .command w :: rest → decode s.cfg w = .error e →
    step s = .next { s with events := rest, fault := .illegalCommand, faultCmd := w }) ∧
  (∀ c, ∃ e, decode c 0x0000 = .error e)

/-- R67: "Exactly 5 + 11*256 + 14 = 2835 of the 65536 words are legal under the default table". -/
def Obligations.LegalWordCountIs2835 : Prop :=
  (List.range 65536).countP (fun n => (decode Config.default (BitVec.ofNat 16 n)).isOk) = 2835

/-- Words written out from R61 and R62 decode to the commands they stand for, one or more for each command. -/
def Obligations.SpecWordsDecode : Prop :=
  decodeTableWord 16 0b0001000000000000 = some .init ∧
  decodeTableWord 16 0b0010000000000000 = some .resync ∧
  decodeTableWord 16 0b0011000100000011 = some (.setw 1 3) ∧
  decodeTableWord 16 0b0011101011111111 = some (.setw 10 0xFF) ∧
  decodeTableWord 16 0b0100100000000000 = some (.getr 8) ∧
  decodeTableWord 16 0b0100110100000000 = some (.getr 13) ∧
  decodeTableWord 16 0b0101000000000000 = some .rddev ∧
  decodeTableWord 16 0b0110000000000000 = some .wrdev ∧
  decodeTableWord 16 0b0111000000000000 = some .getmag ∧
  decodeTableWord 16 0b0011101100000000 = none ∧
  decodeTableWord 16 0b0100111000000000 = none

/-! ### A step, and accepting a word -/

/-- R60: when the next event is a word that decodes to a command, the step is `exec` of that command at the state without
the event. Nothing else stands around `exec`: there is no program counter (R25). -/
def Obligations.StepRunsDecodedCommand : Prop :=
  ∀ (s : State) w i rest, s.events = .command w :: rest → decode s.cfg w = .ok i →
    step s = exec i { s with events := rest }

/-- Log 2: a word placed by `withFetchWord` is run by the very next step, and the step leaves the events that were there. -/
def Obligations.PlacedWordRunsNext : Prop :=
  ∀ (s : State) (w : CmdWord) i, decode s.cfg w = .ok i → step (s.withFetchWord 16 w.toNat) = exec i s

/-- Log 3 (the model's choice): without an event the machine waits, in every state. -/
def Obligations.EventlessStepWaits : Prop :=
  ∀ s : State, s.events = [] → step s = .next s

/-- R144: the checks at acceptance, in their order; exactly one cause is recorded, a word that passes every check runs its
command and raises no fault, and no step that takes a word sends `BUS_ERROR`. -/
def Obligations.AcceptanceOrderPicksOneCause : Prop :=
  ∀ (s : State) w rest, s.events = .command w :: rest →
    (s.fault ≠ .none → step s = .next { s with events := rest }) ∧
    (s.fault = .none → s.pend ≠ none →
      step s = .next { s with events := rest, fault := .commandWhileBusy, faultCmd := w }) ∧
    (s.idle → (∃ e, decode s.cfg w = .error e) →
      step s = .next { s with events := rest, fault := .illegalCommand, faultCmd := w }) ∧
    (s.idle → decode s.cfg w = .ok .getmag → s.phase = .uninit →
      step s = .next { s with events := rest, fault := .notInitialized, faultCmd := w }) ∧
    (s.idle → decode s.cfg w = .ok .wrdev → s.rsvSync = false →
      step s = .next { s with events := rest, fault := .unsyncedWrite, faultCmd := w }) ∧
    (∀ i, s.idle → decode s.cfg w = .ok i → ¬ (i = .getmag ∧ s.phase = .uninit) → ¬ (i = .wrdev ∧ s.rsvSync = false) →
      step s = exec i { s with events := rest } ∧
      ∃ t, step s = .next t ∧ t.fault = .none ∧ t.faultCmd = s.faultCmd) ∧
    (∀ t, step s = .next t → t.responses = s.responses ∨ ∃ d, t.responses = s.responses ++ [⟨.ok, d⟩])

/-- R144, checks 1 and 2, for a command itself: faulted, nothing happens; busy, it faults `COMMAND_WHILE_BUSY` with its own
word and has no other effect. An idle SETW or GETR of an unassigned field id, which no legal word gives, faults
`ILLEGAL_COMMAND` (R66; log 14). -/
def Obligations.UnacceptedCommandHasNoEffect : Prop :=
  ∀ (i : Instr) (s : State),
    (s.fault ≠ .none → exec i s = .next s) ∧
    (s.fault = .none → s.pend ≠ none →
      exec i s = .next { s with fault := .commandWhileBusy, faultCmd := encode i }) ∧
    (s.idle → i.wellFormed s.cfg = false →
      exec i s = .next { s with fault := .illegalCommand, faultCmd := encode i })

/-- R142, R141: the codes of the fault causes and of the statuses. -/
def Obligations.CauseAndStatusCodes : Prop :=
  [Cause.none, .illegalCommand, .commandWhileBusy, .notInitialized, .unsyncedWrite].map Cause.code = [0, 1, 2, 3, 4] ∧
  [Status.ok, .busError].map Status.code = [0, 1]

/-- R143: a step that raises a fault takes a command word, records the cause and that word, and changes nothing else: no
bus request, no response, and `PEND` keeps its value. -/
def Obligations.FaultEntryIsPrecise : Prop :=
  ∀ s t : State, step s = .next t → s.fault = .none → t.fault ≠ .none →
    ∃ w rest, s.events = .command w :: rest ∧
      t = { s with events := rest, fault := t.fault, faultCmd := w }

/-- R29, R146: only reset leaves the faulted state. Any other event is taken and changes nothing, a late bus answer
included (R143), so no second fault occurs. -/
def Obligations.OnlyResetLeavesFaultedState : Prop :=
  ∀ s t : State, s.fault ≠ .none → step s = .next t →
    (∃ a rest, s.events = .reset a :: rest ∧ t.fault = .none) ∨ t = { s with events := s.events.tail }

/-! ### The field primitives and the field commands -/

/-- R84: EXTRACT is the source's accessor, reads one byte, and its result lies in `0 .. (mask >> shift)`. -/
def Obligations.ExtractStaysWithinField : Prop :=
  ∀ (n : Nat) (f : Vector Byte n) (s : FieldSpec n),
    extract f s = (f[s.byteIndex] &&& s.mask) >>> s.shift.val ∧
    (extract f s).toNat ≤ (s.mask >>> s.shift.val).toNat ∧
    (∀ g : Vector Byte n, g[s.byteIndex] = f[s.byteIndex] → extract g s = extract f s)

/-- R85: MERGE is the source's mutator; the stored field value is `v & (mask >> shift)`, bits outside the mask and every
other byte are unchanged. -/
def Obligations.MergeWritesOneField : Prop :=
  ∀ (n : Nat) (f : Vector Byte n) (s : FieldSpec n) (v : Byte), s.isRun →
    (merge f s v)[s.byteIndex] = (f[s.byteIndex] &&& ~~~s.mask) ||| ((v <<< s.shift.val) &&& s.mask) ∧
    ((merge f s v)[s.byteIndex] &&& s.mask) >>> s.shift.val = v &&& (s.mask >>> s.shift.val) ∧
    (merge f s v)[s.byteIndex] &&& ~~~s.mask = f[s.byteIndex] &&& ~~~s.mask ∧
    (∀ i : Fin n, i ≠ s.byteIndex → (merge f s v)[i] = f[i])

/-- R88: the five field laws, and that distinct entries of one well-formed table are disjoint (R81 `TW4`) runs (`TW3`), so
that the laws apply to them. -/
def Obligations.FieldLaws : Prop :=
  (∀ (n : Nat) (f : Vector Byte n) (s : FieldSpec n) (v v1 v2 : Byte), s.isRun →
    extract (merge f s v) s = v &&& (s.mask >>> s.shift.val) ∧
    merge (merge f s v) s v = merge f s v ∧
    merge (merge f s v1) s v2 = merge f s v2 ∧
    (∀ i : Fin n, (merge f s v)[i] &&& ~~~(if i = s.byteIndex then s.mask else 0) =
      f[i] &&& ~~~(if i = s.byteIndex then s.mask else 0)) ∧
    (∀ t : FieldSpec n, s.disjoint t →
      extract (merge f s v) t = extract f t ∧ merge (merge f s v1) t v2 = merge (merge f t v2) s v1)) ∧
  (∀ (c : Config) (i j : BitVec 4), c.wf → i ≠ j →
    (∀ s t, c.table.rt.lookup i = some s → c.table.rt.lookup j = some t → s.isRun ∧ s.disjoint t) ∧
    (∀ s t, c.table.wt.lookup i = some s → c.table.wt.lookup j = some t → s.isRun ∧ s.disjoint t))

/-- R86: SETW on an idle machine merges the value into the field, cancels the resync where the field is a reserved one,
answers `OK` without payload, and does nothing else. -/
def Obligations.SetwMergesNamedField : Prop :=
  (∀ fid v, encode (.setw fid v) = 0x3#4 ++ fid ++ v) ∧
  ∀ (s : State) (fid : BitVec 4) (v : Byte) (spec : WriteFieldSpec), s.idle → s.cfg.table.wt.lookup fid = some spec →
    exec (.setw fid v) s = .next { s with
      wf := s.wf.set spec.byteIndex.val
        ((s.wf[spec.byteIndex] &&& ~~~spec.mask) ||| ((v <<< spec.shift.val) &&& spec.mask))
      rsvSync := if fid = 8 ∨ fid = 9 ∨ fid = 10 then false else s.rsvSync
      responses := s.responses ++ [⟨.ok, .empty⟩] }

/-- R87: GETR on an idle machine answers `OK` with the field of the read frame, and does nothing else. -/
def Obligations.GetrReturnsNamedField : Prop :=
  (∀ fid, encode (.getr fid) = 0x4#4 ++ fid ++ 0x00#8) ∧
  ∀ (s : State) (fid : BitVec 4) (spec : ReadFieldSpec), s.idle → s.cfg.table.rt.lookup fid = some spec →
    exec (.getr fid) s = .next { s with
      responses := s.responses ++ [⟨.ok, .byte ((s.rf[spec.byteIndex] &&& spec.mask) >>> spec.shift.val)⟩] }

/-- R86 with R88: under a well-formed table a SETW that is carried out stores the value truncated to the field and leaves
every other field of the write frame as it was. -/
def Obligations.SetwLeavesOtherFieldsAlone : Prop :=
  ∀ (s t : State) (fid other : BitVec 4) (v : Byte) (spec u : WriteFieldSpec), s.cfg.wf → s.idle →
    s.cfg.table.wt.lookup fid = some spec → s.cfg.table.wt.lookup other = some u → other ≠ fid →
    exec (.setw fid v) s = .next t →
    extract t.wf spec = v &&& (spec.mask >>> spec.shift.val) ∧ extract t.wf u = extract s.wf u

/-- R86, R87: the frame of the two field commands, in every state. Neither touches the bus, `RF`, `PHASE`, `PEND`, `LFC` or
`ADDR`; GETR writes no frame at all; SETW stores to the one byte its field's spec names; `RSV_SYNC` changes only under a
SETW of a reserved field; `FAULT` and `FAULT_CMD` change only where the command is not carried out. -/
def Obligations.FieldCommandsFrame : Prop :=
  (∀ (s t : State) (fid : BitVec 4), exec (.getr fid) s = .next t →
    (∀ i : Fin 10, t.rf[i] = s.rf[i]) ∧ (∀ i : Fin 4, t.wf[i] = s.wf[i]) ∧ t.rsvSync = s.rsvSync ∧
    t.phase = s.phase ∧ t.pend = s.pend ∧ t.lfc = s.lfc ∧ t.addr = s.addr ∧ t.cfg = s.cfg ∧ t.requests = s.requests ∧
    t.events = s.events ∧
    (s.idle → (s.cfg.table.rt.lookup fid).isSome → t.fault = s.fault ∧ t.faultCmd = s.faultCmd)) ∧
  (∀ (s t : State) (fid : BitVec 4) (v : Byte), exec (.setw fid v) s = .next t →
    (∀ i : Fin 10, t.rf[i] = s.rf[i]) ∧
    (∀ i : Fin 4, (∀ spec, s.cfg.table.wt.lookup fid = some spec → i ≠ spec.byteIndex) → t.wf[i] = s.wf[i]) ∧
    (isReservedWriteId fid = false → t.rsvSync = s.rsvSync) ∧
    t.phase = s.phase ∧ t.pend = s.pend ∧ t.lfc = s.lfc ∧ t.addr = s.addr ∧ t.cfg = s.cfg ∧ t.requests = s.requests ∧
    t.events = s.events ∧
    (s.idle → (s.cfg.table.wt.lookup fid).isSome → t.fault = s.fault ∧ t.faultCmd = s.faultCmd))

/-- R87: "Before any bus read it returns a zero-filled field, not an error": with the read frame zero, every GETR of an
assigned id answers 0, and after reset the read frame is zero. -/
def Obligations.GetrOfZeroFrameReturnsZero : Prop :=
  (∀ (s : State) (fid : BitVec 4), s.idle → (s.cfg.table.rt.lookup fid).isSome → s.rf = Vector.replicate 10 0 →
    exec (.getr fid) s = .next { s with responses := s.responses ++ [⟨.ok, .byte 0⟩] }) ∧
  State.reset.rf = Vector.replicate 10 0

/-! ### The driver operations -/

/-- R100, R101, R104, R105, R124: the frame of the issue part of the five bus commands, in every state. Both frames,
`PHASE`, `RSV_SYNC`, `LFC` and `ADDR` are unchanged and no response is sent; `PEND` and the request list change together,
or `FAULT` and `FAULT_CMD` do, or nothing does. -/
def Obligations.BusCommandsIssueFrame : Prop :=
  ∀ (i : Instr) (s t : State), (i = .init ∨ i = .resync ∨ i = .rddev ∨ i = .wrdev ∨ i = .getmag) →
    exec i s = .next t →
    (∀ j : Fin 10, t.rf[j] = s.rf[j]) ∧ (∀ j : Fin 4, t.wf[j] = s.wf[j]) ∧ t.phase = s.phase ∧
    t.rsvSync = s.rsvSync ∧ t.lfc = s.lfc ∧ t.addr = s.addr ∧ t.cfg = s.cfg ∧ t.events = s.events ∧
    t.responses = s.responses ∧
    ((t.fault = s.fault ∧ t.faultCmd = s.faultCmd ∧
        ∃ p, p.cmd = i ∧ p.stage = 0 ∧ t.pend = some p ∧ t.requests = s.requests ++ [p.request s.addr]) ∨
      (t.pend = s.pend ∧ t.requests = s.requests ∧ s.fault = .none ∧ t.fault ≠ .none ∧ t.faultCmd = encode i) ∨
      (s.fault ≠ .none ∧ t = s))

/-- R100: INIT, part by part. Issued on an idle machine it requests a read. On `Ok(b)` the frame is replaced, the three
reserved fields are echoed and the four configuration fields merged, and a write of the result is requested. On `Ok` the
machine is READY; on `Err` of the write, the merges stay and `RSV_SYNC` stays as the echo set it. -/
def Obligations.InitReadsEchoesConfiguresWrites : Prop :=
  encode .init = 0x1000 ∧
  (∀ s : State, s.idle →
    exec .init s = .next { s with pend := some .initRead, requests := s.requests ++ [.read s.addr] }) ∧
  (∀ (s : State) (b : ReadFrame) (rest : List Event) (echoed w : WriteFrame), s.answerNext .initRead (.readOk b) rest →
    echoed = merge (merge (merge s.wf
        s.cfg.table.wt.res1 (extract b s.cfg.table.rt.res1))
        s.cfg.table.wt.res2 (extract b s.cfg.table.rt.res2))
        s.cfg.table.wt.res3 (extract b s.cfg.table.rt.res3) →
    w = merge (merge (merge (merge echoed
        s.cfg.table.wt.addr s.cfg.initAddr) s.cfg.table.wt.parity 1) s.cfg.table.wt.fast 1) s.cfg.table.wt.lowpower 1 →
    step s = .next { s with
      rf := b, wf := w, rsvSync := true, pend := some (.initWrite w), events := rest
      requests := s.requests ++ [.write s.addr w] }) ∧
  (∀ (s : State) (w : WriteFrame) (rest : List Event), s.answerNext (.initWrite w) .writeOk rest →
    step s = .next { s with
      rsvSync := false, phase := .ready, pend := none, events := rest
      responses := s.responses ++ [⟨.ok, .empty⟩] }) ∧
  (∀ (s : State) (p : Pending) (rest : List Event), p.cmd = .init → s.answerNext p .err rest →
    step s = .next { s with pend := none, events := rest, responses := s.responses ++ [⟨.busError, .empty⟩] })

/-- R100, post-condition (V1.4), with R88: under a well-formed table the write frame INIT sends has parity, fast mode and
low power 1, the address field `INIT_ADDR_VALUE` truncated to it, the reserved fields of the frame just read, and every
field INIT does not name as it was. -/
def Obligations.InitWriteFramePostcondition : Prop :=
  ∀ (s t : State) (b : ReadFrame) (rest : List Event), s.cfg.wf → s.answerNext .initRead (.readOk b) rest →
    step s = .next t →
    t.pend = some (.initWrite t.wf) ∧
    extract t.wf s.cfg.table.wt.parity = 1 ∧ extract t.wf s.cfg.table.wt.fast = 1 ∧
    extract t.wf s.cfg.table.wt.lowpower = 1 ∧
    extract t.wf s.cfg.table.wt.addr =
      s.cfg.initAddr &&& (s.cfg.table.wt.addr.mask >>> s.cfg.table.wt.addr.shift.val) ∧
    extract t.wf s.cfg.table.wt.res1 = extract b s.cfg.table.rt.res1 ∧
    extract t.wf s.cfg.table.wt.res2 = extract b s.cfg.table.rt.res2 ∧
    extract t.wf s.cfg.table.wt.res3 = extract b s.cfg.table.rt.res3 ∧
    (∀ (fid : BitVec 4) (u : WriteFieldSpec), fid ∉ [0, 1, 3, 4, 8, 9, 10] → s.cfg.table.wt.lookup fid = some u →
      extract t.wf u = extract s.wf u)

/-- R101: RESYNC on an idle machine requests a read; on `Ok(b)` it replaces the frame, echoes the three reserved fields,
sets `RSV_SYNC` and answers `OK`; on `Err` it answers `BUS_ERROR` and changes nothing else. -/
def Obligations.ResyncEchoesReservedFields : Prop :=
  encode .resync = 0x2000 ∧
  (∀ s : State, s.idle →
    exec .resync s = .next { s with pend := some .resyncRead, requests := s.requests ++ [.read s.addr] }) ∧
  (∀ (s : State) (b : ReadFrame) (rest : List Event), s.answerNext .resyncRead (.readOk b) rest →
    step s = .next { s with
      rf := b
      wf := merge (merge (merge s.wf
        s.cfg.table.wt.res1 (extract b s.cfg.table.rt.res1))
        s.cfg.table.wt.res2 (extract b s.cfg.table.rt.res2))
        s.cfg.table.wt.res3 (extract b s.cfg.table.rt.res3)
      rsvSync := true, pend := none, events := rest
      responses := s.responses ++ [⟨.ok, .empty⟩] }) ∧
  (∀ (s : State) (rest : List Event), s.answerNext .resyncRead .err rest →
    step s = .next { s with pend := none, events := rest, responses := s.responses ++ [⟨.busError, .empty⟩] })

/-- R102: under a well-formed table ECHO makes each reserved write field equal to its read field exactly (`TW7`), sets
`RSV_SYNC`, leaves every other write field alone, and is the three merges of the rule in whichever order they are done. -/
def Obligations.EchoCopiesReservedFieldsExactly : Prop :=
  ∀ s : State, s.cfg.wf →
    (echo s).rsvSync = true ∧ (echo s).rf = s.rf ∧
    extract (echo s).wf s.cfg.table.wt.res1 = extract s.rf s.cfg.table.rt.res1 ∧
    extract (echo s).wf s.cfg.table.wt.res2 = extract s.rf s.cfg.table.rt.res2 ∧
    extract (echo s).wf s.cfg.table.wt.res3 = extract s.rf s.cfg.table.rt.res3 ∧
    (∀ (fid : BitVec 4) (u : WriteFieldSpec), isReservedWriteId fid = false → s.cfg.table.wt.lookup fid = some u →
      extract (echo s).wf u = extract s.wf u) ∧
    (∀ order : List (WriteFieldSpec × Byte),
      order.Perm [(s.cfg.table.wt.res1, extract s.rf s.cfg.table.rt.res1),
        (s.cfg.table.wt.res2, extract s.rf s.cfg.table.rt.res2),
        (s.cfg.table.wt.res3, extract s.rf s.cfg.table.rt.res3)] →
      (echo s).wf = order.foldl (fun w m => merge w m.1 m.2) s.wf)

/-- R104: RDDEV on an idle machine requests a read; on `Ok(b)` all ten bytes are replaced and it answers `OK`; on `Err` it
answers `BUS_ERROR` and the frame stays. -/
def Obligations.RddevReplacesReadFrame : Prop :=
  encode .rddev = 0x5000 ∧
  (∀ s : State, s.idle →
    exec .rddev s = .next { s with pend := some .rddevRead, requests := s.requests ++ [.read s.addr] }) ∧
  (∀ (s : State) (b : ReadFrame) (rest : List Event), s.answerNext .rddevRead (.readOk b) rest →
    step s = .next { s with
      rf := b, pend := none, events := rest, responses := s.responses ++ [⟨.ok, .empty⟩] }) ∧
  (∀ (s : State) (rest : List Event), s.answerNext .rddevRead .err rest →
    step s = .next { s with pend := none, events := rest, responses := s.responses ++ [⟨.busError, .empty⟩] })

/-- R105: WRDEV on an idle machine sends the write frame where a resync has populated the reserved fields, and otherwise
faults `UNSYNCED_WRITE` and sends nothing; on `Ok` it consumes the resync and answers `OK`; on `Err` it answers
`BUS_ERROR` and keeps it. -/
def Obligations.WrdevSendsWriteFrameWhenSynced : Prop :=
  encode .wrdev = 0x6000 ∧
  (∀ s : State, s.idle → s.rsvSync = true →
    exec .wrdev s = .next { s with
      pend := some (.wrdevWrite s.wf), requests := s.requests ++ [.write s.addr s.wf] }) ∧
  (∀ s : State, s.idle → s.rsvSync = false →
    exec .wrdev s = .next { s with fault := .unsyncedWrite, faultCmd := 0x6000 }) ∧
  (∀ (s : State) (w : WriteFrame) (rest : List Event), s.answerNext (.wrdevWrite w) .writeOk rest →
    step s = .next { s with
      rsvSync := false, pend := none, events := rest, responses := s.responses ++ [⟨.ok, .empty⟩] }) ∧
  (∀ (s : State) (w : WriteFrame) (rest : List Event), s.answerNext (.wrdevWrite w) .err rest →
    step s = .next { s with pend := none, events := rest, responses := s.responses ++ [⟨.busError, .empty⟩] })

/-- R145: what each command leaves after `Err(BusError)`. The failed transfer changes `PEND` alone and the error is passed
on. So a command whose read failed leaves both frames, `RSV_SYNC` and `PHASE` as they were when it was issued; INIT whose
write failed leaves the new frame, the merged write frame, `RSV_SYNC` 1 and `PHASE` as it was. -/
def Obligations.BusErrorEffects : Prop :=
  (∀ (s : State) (p : Pending) (rest : List Event), s.answerNext p .err rest →
    step s = .next { s with pend := none, events := rest, responses := s.responses ++ [⟨.busError, .empty⟩] }) ∧
  (∀ (s t : State) (b : ReadFrame) (n : Nat) (rest : List Event), s.fault = .none → s.pend = some .initRead →
    n + 1 = s.requests.length → s.events = .answer n (.readOk b) :: .answer (n + 1) .err :: rest →
    Host.Core.run core 2 s = .next t →
    t.rf = b ∧ t.rsvSync = true ∧ t.phase = s.phase ∧ t.pend = none ∧ t.events = rest ∧
    t.wf = (programConfig (echo { s with rf := b })).wf ∧ t.requests = s.requests ++ [.write s.addr t.wf] ∧
    t.responses = s.responses ++ [⟨.busError, .empty⟩])

/-! ### The conversion pipeline -/

/-- R120: for every high byte and every low nibble, RECONSTRUCT is the source's formula and equals the 12-bit
two's-complement reading of `hi ++ lo[3:0]`; bits 15:12 are copies of `hi[7]`, bits 11:4 are `hi`, bits 3:0 are `lo`. -/
def Obligations.ReconstructReadsTwelveBits : Prop :=
  ∀ hi lo : Byte, lo.toNat ≤ 0x0F →
    reconstruct hi lo = ((hi.signExtend 16) <<< 4) ||| lo.zeroExtend 16 ∧
    reconstruct hi lo = ((hi ++ lo.extractLsb' 0 4 : BitVec 12)).signExtend 16 ∧
    (reconstruct hi lo).extractLsb' 12 4 = (if hi.msb then 0xF else 0x0 : BitVec 4) ∧
    (reconstruct hi lo).extractLsb' 4 8 = hi ∧ (reconstruct hi lo).extractLsb' 0 4 = lo.extractLsb' 0 4

/-- R121: the range is exactly -2048 to 2047, each value comes from exactly one pair, and the boundary values are the
table's. -/
def Obligations.ReconstructIsBijection : Prop :=
  (∀ hi lo : Byte, lo.toNat ≤ 0x0F → -2048 ≤ (reconstruct hi lo).toInt ∧ (reconstruct hi lo).toInt ≤ 2047) ∧
  (∀ r : Int, -2048 ≤ r → r ≤ 2047 → ∃! p : Byte × Byte, p.2.toNat ≤ 0x0F ∧ (reconstruct p.1 p.2).toInt = r) ∧
  (reconstruct 0x7F 0xF = 0x07FF ∧ reconstruct 0x80 0x0 = 0xF800 ∧ reconstruct 0xFF 0xF = 0xFFFF ∧
    reconstruct 0x00 0x0 = 0x0000)

/-- R9 `RNE_FMT(q)`: for every exact real of magnitude at most the largest finite value, the result is a finite value of
the format, none of the format is nearer, and where another is as near the result's significand is even. -/
def Obligations.RoundingIsNearestTiesToEven : Prop :=
  ∀ (f : Fmt) (n : Int) (d : Nat), 0 < d → |mkRat n d| ≤ (f.pattern false (f.infMag - 1)).value →
    (rne f n d).fmt = f ∧ (rne f n d).isFinite = true ∧
    ∀ v : FmtVal, v.fmt = f → v.isFinite = true →
      |(rne f n d).value - mkRat n d| ≤ |v.value - mkRat n d| ∧
      (|(rne f n d).value - mkRat n d| = |v.value - mkRat n d| → v ≠ rne f n d → (rne f n d).mag % 2 = 0)

/-- R122: the scale constant, in both formats: its pattern and its exact value. -/
def Obligations.ScaleConstantIsRoundedOnce : Prop :=
  scaleConst .binary32 = .b32 0x3DC8B439 ∧ (scaleConst .binary32).value = mkRat 13153337 (2 ^ 27) ∧
  scaleConst .binary64 = .b64 0x3FB916872B020C4A ∧ (scaleConst .binary64).value = mkRat 3530822107858469 (2 ^ 55)

/-- R122: SCALE is IEEE multiplication of the raw count and `K`, round to nearest even: no finite value of the format is
nearer to the exact product. -/
def Obligations.ScaleRoundsExactProduct : Prop :=
  ∀ (f : Fmt) (r : BitVec 16), -2048 ≤ r.toInt → r.toInt ≤ 2047 →
    (scale f r).fmt = f ∧ (scale f r).isFinite = true ∧
    ∀ v : FmtVal, v.fmt = f → v.isFinite = true →
      |(scale f r).value - r.toInt * (scaleConst f).value| ≤ |v.value - r.toInt * (scaleConst f).value| ∧
      (|(scale f r).value - r.toInt * (scaleConst f).value| = |v.value - r.toInt * (scaleConst f).value| →
        v ≠ scale f r → (scale f r).mag % 2 = 0)

/-- R122 `P_SCALE`: what the source alone says of SCALE. The first condition is one of values: at 0 it reads `+0 = -0`. -/
def Obligations.ScaleSatisfiesPScale : Prop :=
  ∀ f : Fmt,
    (∀ r : BitVec 16, -2047 ≤ r.toInt → r.toInt ≤ 2047 → (scale f (-r)).value = - (scale f r).value) ∧
    (∀ r : BitVec 16, r ≠ 0 → -2047 ≤ r.toInt → r.toInt ≤ 2047 → scale f (-r) = (scale f r).neg) ∧
    scale f 0 = f.pattern false 0 ∧
    (∀ r : BitVec 16, r ≠ 0 → -2048 ≤ r.toInt → r.toInt ≤ 2047 →
      |(scale f r).value - mkRat (98 * r.toInt) 1000| ≤ f.ulp (98 * r.toInt.natAbs) 1000)

/-- R123: every result is +0 (for 0) or a normal number of the sign of `r` with magnitude between `K` and that of
`SCALE(-2048)`; in binary32 the bounds are the patterns the rule prints. -/
def Obligations.ScaleResultsAreZeroOrNormal : Prop :=
  (∀ (f : Fmt) (r : BitVec 16), -2048 ≤ r.toInt → r.toInt ≤ 2047 →
    (r = 0 → scale f r = f.pattern false 0) ∧
    (r ≠ 0 → (scale f r).isNormal = true ∧ ((scale f r).sign = true ↔ r.toInt < 0) ∧
      (scaleConst f).value ≤ |(scale f r).value| ∧ |(scale f r).value| ≤ |(scale f (-2048)).value|)) ∧
  scale .binary32 1 = .b32 0x3DC8B439 ∧ scale .binary32 (-2048) = .b32 0xC348B439

/-- R124: GETMAG on an idle machine faults `NOT_INITIALIZED` in `UNINIT` and otherwise requests a read; on `Ok(b)` it
replaces the frame and answers with the three converted axes of that frame, in the order x, y, z; on `Err` it answers
`BUS_ERROR` and both frames stay. -/
def Obligations.GetmagConvertsFrameJustRead : Prop :=
  encode .getmag = 0x7000 ∧
  (∀ s : State, s.idle → s.phase = .ready →
    exec .getmag s = .next { s with pend := some .getmagRead, requests := s.requests ++ [.read s.addr] }) ∧
  (∀ s : State, s.idle → s.phase = .uninit →
    exec .getmag s = .next { s with fault := .notInitialized, faultCmd := 0x7000 }) ∧
  (∀ (s : State) (b : ReadFrame) (rest : List Event), s.answerNext .getmagRead (.readOk b) rest →
    step s = .next { s with
      rf := b, pend := none, events := rest
      responses := s.responses ++ [⟨.ok, .magnet
        (scale s.cfg.fmt (reconstruct (extract b s.cfg.table.rt.bxH) (extract b s.cfg.table.rt.bxL)))
        (scale s.cfg.fmt (reconstruct (extract b s.cfg.table.rt.byH) (extract b s.cfg.table.rt.byL)))
        (scale s.cfg.fmt (reconstruct (extract b s.cfg.table.rt.bzH) (extract b s.cfg.table.rt.bzL)))⟩] }) ∧
  (∀ (s : State) (rest : List Event), s.answerNext .getmagRead .err rest →
    step s = .next { s with pend := none, events := rest, responses := s.responses ++ [⟨.busError, .empty⟩] })

/-- R124: "The temperature, frame-counter, channel and power-down fields are not consulted", and no earlier frame is: two
machines of one configuration whose answers agree on the six axis fields send the same reading. -/
def Obligations.ReadingDependsOnlyOnAxisFields : Prop :=
  ∀ (s u t t' : State) (b b' : ReadFrame) (rest rest' : List Event), s.cfg = u.cfg →
    s.answerNext .getmagRead (.readOk b) rest → u.answerNext .getmagRead (.readOk b') rest' →
    (∀ spec ∈ [s.cfg.table.rt.bxH, s.cfg.table.rt.bxL, s.cfg.table.rt.byH, s.cfg.table.rt.byL,
      s.cfg.table.rt.bzH, s.cfg.table.rt.bzL], extract b spec = extract b' spec) →
    step s = .next t → step u = .next t' → t.responses.getLast? = t'.responses.getLast? ∧ t.responses ≠ []

/-- R124, R81 `TW6`: under a well-formed table a reading of an all-zero frame is three `+0`, one of an all-0xFF frame is
three times `SCALE(-1)`, and every axis of every frame is `SCALE` of a count in -2048..2047. -/
def Obligations.ReadingsOfUniformFrames : Prop :=
  ∀ (c : Config), c.wf →
    magnetVals c (Vector.replicate 10 0) =
      .magnet (c.fmt.pattern false 0) (c.fmt.pattern false 0) (c.fmt.pattern false 0) ∧
    magnetVals c (Vector.replicate 10 0xFF) = .magnet (scale c.fmt (-1)) (scale c.fmt (-1)) (scale c.fmt (-1)) ∧
    ∀ b : ReadFrame, ∃ x y z : BitVec 16, magnetVals c b = .magnet (scale c.fmt x) (scale c.fmt y) (scale c.fmt z) ∧
      ∀ r ∈ [x, y, z], -2048 ≤ r.toInt ∧ r.toInt ≤ 2047

/-! ### The machine as a whole -/

/-- R160: reset at any time, from any state, faulted or busy included, sets every item as the rule lists it, sends nothing
to the bus and answers nothing; an answer to a transfer it abandoned is dropped; and `State.reset` is such a state. -/
def Obligations.ResetRestoresEveryItem : Prop :=
  (∀ (s : State) a rest, s.events = .reset a :: rest →
    step s = .next { s with
      events := rest, addr := a, rf := Vector.replicate 10 0x00, wf := Vector.replicate 4 0x00, lfc := 0,
      phase := .uninit, rsvSync := false, pend := none, fault := .none, faultCmd := 0x0000 }) ∧
  (∀ (s : State) a n ans rest, s.events = .reset a :: .answer n ans :: rest →
    Host.Core.run core 2 s = .next (resetWith a (s.withEvents rest))) ∧
  resetWith Config.busAddr State.reset = State.reset

/-- R160, R143, R44: an answer to a request that is not the latest, or that comes when none is pending, is dropped. So an
answer to a transfer that a reset abandoned never reaches the frame, even when the same command has been issued again. -/
def Obligations.AbandonedAnswersAreDropped : Prop :=
  (∀ (s : State) n a rest, s.events = .answer n a :: rest → (s.pend = none ∨ n + 1 ≠ s.requests.length) →
    step s = .next { s with events := rest }) ∧
  (∀ (s t : State) p n a b rest, s.pend = some p → n + 1 = s.requests.length →
    s.events = .reset b :: .command 0x5000 :: .answer n a :: rest → Host.Core.run core 3 s = .next t →
    t.rf = Vector.replicate 10 0 ∧ t.pend = some .rddevRead ∧ t.responses = s.responses ∧ t.addr = b ∧
      t.events = rest)

/-- R21, R45: a step changes `RF` only by taking the `Ok(b)` answer to the pending read, and then to `b`, or by reset. -/
def Obligations.ReadFrameWrittenOnlyByReads : Prop :=
  ∀ s t : State, step s = .next t →
    t.rf = s.rf ∨
    (∃ p n b rest, s.pend = some p ∧ p.kind = .read ∧ n + 1 = s.requests.length ∧
      s.events = .answer n (.readOk b) :: rest ∧ t.rf = b) ∨
    (∃ a rest, s.events = .reset a :: rest ∧ t.rf = Vector.replicate 10 0)

/-- R22, R31: a step changes `WF` only by a SETW, by the answer to the read of INIT or RESYNC, or by reset; and, reset
apart, it never changes a bit that no write field of the table covers. -/
def Obligations.WriteFrameWrittenOnlyByMerges : Prop :=
  ∀ s t : State, step s = .next t →
    (∃ a rest, s.events = .reset a :: rest ∧ t.wf = Vector.replicate 4 0) ∨
    ((∀ i : Fin 4, t.wf[i] &&& ~~~(s.cfg.table.wt.covered i) = s.wf[i] &&& ~~~(s.cfg.table.wt.covered i)) ∧
      (t.wf = s.wf ∨
        (∃ w fid v rest, s.events = .command w :: rest ∧ decode s.cfg w = .ok (.setw fid v)) ∨
        (∃ n b rest, n + 1 = s.requests.length ∧ s.events = .answer n (.readOk b) :: rest ∧
          (s.pend = some .initRead ∨ s.pend = some .resyncRead))))

/-- R23: `PHASE` goes from `UNINIT` to `READY` only when INIT completes `OK`, and back only by reset. -/
def Obligations.PhaseReadyOnlyByInit : Prop :=
  ∀ s t : State, step s = .next t →
    (s.phase = .uninit → t.phase = .ready →
      ∃ w n rest, s.pend = some (.initWrite w) ∧ n + 1 = s.requests.length ∧ s.events = .answer n .writeOk :: rest ∧
        t.responses = s.responses ++ [⟨.ok, .empty⟩]) ∧
    (s.phase = .ready → t.phase = .uninit → ∃ a rest, s.events = .reset a :: rest)

/-- R28: what sets and what clears `RSV_SYNC`. -/
def Obligations.SyncFlagWriters : Prop :=
  ∀ s t : State, step s = .next t →
    (s.rsvSync = false → t.rsvSync = true →
      ∃ n b rest, n + 1 = s.requests.length ∧ s.events = .answer n (.readOk b) :: rest ∧
        (s.pend = some .initRead ∨ s.pend = some .resyncRead)) ∧
    (s.rsvSync = true → t.rsvSync = false →
      (∃ p n rest, s.pend = some p ∧ p.kind = .write ∧ n + 1 = s.requests.length ∧
        s.events = .answer n .writeOk :: rest) ∨
      (∃ w fid v rest, s.events = .command w :: rest ∧ decode s.cfg w = .ok (.setw fid v) ∧
        (fid = 8 ∨ fid = 9 ∨ fid = 10)) ∨
      (∃ a rest, s.events = .reset a :: rest))

/-- R26, R30, R34: no step changes the configuration, and only reset changes `LFC` and `ADDR`. -/
def Obligations.ConfigurationLfcAndAddrFixed : Prop :=
  ∀ s t : State, step s = .next t →
    t.cfg = s.cfg ∧
    ((t.lfc = s.lfc ∧ t.addr = s.addr) ∨ (∃ a rest, s.events = .reset a :: rest ∧ t.lfc = 0 ∧ t.addr = a))

/-- R44, R46, R30: a step issues at most one bus request; it is then the pending one, carries `ADDR` and, for a write, the
write frame; and it is issued only where nothing was pending, or by the very step that takes the answer `Ok(b)` to INIT's
read, and is then INIT's write. -/
def Obligations.OneRequestAtATime : Prop :=
  ∀ s t : State, step s = .next t →
    t.requests = s.requests ∨
    ∃ p, t.requests = s.requests ++ [p.request s.addr] ∧ t.pend = some p ∧ s.fault = .none ∧
      (s.pend = none ∨
        (s.pend = some .initRead ∧ p = .initWrite t.wf ∧
          ∃ n b rest, n + 1 = s.requests.length ∧ s.events = .answer n (.readOk b) :: rest)) ∧
      (∀ w, p.wsnap = some w → w = t.wf)

/-- R46: a step that issues a write takes the snapshot of the write frame, stores it in `PEND` and sends it to `ADDR`; at
completion `WF` is unchanged, and `RSV_SYNC` is cleared on `Ok` and unchanged on `Err`; while a write of the current frame
is pending, it stays the current frame, so a snapshot at completion would be the same. -/
def Obligations.BusWriteSnapshotAndCompletion : Prop :=
  (∀ (s t : State) a w, step s = .next t → t.requests = s.requests ++ [.write a w] →
    a = s.addr ∧ w = t.wf ∧ ∃ p, t.pend = some p ∧ p.wsnap = some w) ∧
  (∀ (s t : State) p rest, p.kind = .write → s.answerNext p .writeOk rest → step s = .next t →
    t.wf = s.wf ∧ t.rsvSync = false ∧ t.pend = none) ∧
  (∀ (s t : State) p rest, p.kind = .write → s.answerNext p .err rest → step s = .next t →
    t.wf = s.wf ∧ t.rsvSync = s.rsvSync ∧ t.pend = none) ∧
  (∀ (s t : State) p, s.pend = some p → p.wsnap = some s.wf → step s = .next t → t.pend = some p → t.wf = s.wf)

/-- R27: "Each command completes exactly once". Along any run without resets that ends without a fault, every command
issued has been answered or is the pending one: what has been answered and what is owed add up to the same. -/
def Obligations.CommandsCompleteExactlyOnce : Prop :=
  ∀ (k : Nat) (s t : State), (∀ e ∈ s.events, e.isReset = false) → Host.Core.run core k s = .next t →
    t.fault = .none → t.responses.length + t.owed = s.responses.length + s.owed

/-- R71, R141: the response a step sends, if any: `BUS_ERROR` without payload for an answer `Err`; for a GETR, `OK` with one
byte; for a GETMAG, `OK` with three values of `FMT`; `OK` without payload for every other command; a fault sends none. -/
def Obligations.ResponsesAreWellFormed : Prop :=
  ∀ s t : State, step s = .next t →
    (t.fault ≠ .none → t.responses = s.responses) ∧
    (t.responses = s.responses ∨
    ∃ r, t.responses = s.responses ++ [r] ∧
      ((r = ⟨.busError, .empty⟩ ∧
          ∃ n rest p, n + 1 = s.requests.length ∧ s.events = .answer n .err :: rest ∧ s.pend = some p) ∨
       (∃ d w fid rest, r = ⟨.ok, .byte d⟩ ∧ s.events = .command w :: rest ∧ decode s.cfg w = .ok (.getr fid)) ∨
       (∃ x y z n b rest, r = ⟨.ok, .magnet x y z⟩ ∧ n + 1 = s.requests.length ∧
         s.events = .answer n (.readOk b) :: rest ∧ s.pend = some .getmagRead ∧ x.fmt = s.cfg.fmt ∧ y.fmt = s.cfg.fmt ∧ z.fmt = s.cfg.fmt) ∨
       (r = ⟨.ok, .empty⟩ ∧
         ((∃ w fid v rest, s.events = .command w :: rest ∧ decode s.cfg w = .ok (.setw fid v)) ∨
          (∃ p n a rest, n + 1 = s.requests.length ∧ s.events = .answer n a :: rest ∧ a ≠ .err ∧
            s.pend = some p ∧ p ≠ .getmagRead)))))

/-- R22, R150: no command reads `WF` back. Two machines that differ only in the write frame take the same step but for the
write frame and the bytes of a write request. -/
def Obligations.WriteFrameIsNeverReadBack : Prop :=
  ∀ (s t : State) (w : WriteFrame), step s = .next t →
    ∃ u, step { s with wf := w } = .next u ∧ u.rf = t.rf ∧ u.phase = t.phase ∧ u.rsvSync = t.rsvSync ∧
      u.fault = t.fault ∧ u.faultCmd = t.faultCmd ∧ u.responses = t.responses ∧ u.addr = t.addr ∧ u.events = t.events ∧
      u.pend.map Pending.cmd = t.pend.map Pending.cmd ∧ u.pend.map Pending.stage = t.pend.map Pending.stage ∧
      u.requests.length = t.requests.length

/-- R160, R81, R89: the invariant holds at reset. -/
def Obligations.InvariantHoldsAtReset : Prop := State.reset.Inv

/-- R81, R26, R31, R35, R46, R24, R30, R103, R124 (the clauses of `State.Inv`): every step keeps the invariant. -/
def Obligations.StepKeepsInvariant : Prop :=
  ∀ s t : State, s.Inv → step s = .next t → t.Inv

/-- R140, R44: a transfer that is never answered leaves the machine stuck: whatever the host issues, `PEND` keeps its value,
nothing is answered, and no frame or request changes. -/
def Obligations.UnansweredTransferStaysPending : Prop :=
  ∀ (k : Nat) (s t : State), s.stuck → Host.Core.run core k s = .next t →
    t.pend = s.pend ∧ t.responses = s.responses ∧ t.requests = s.requests ∧ t.rf = s.rf ∧ t.wf = s.wf ∧
    t.phase = s.phase ∧ t.rsvSync = s.rsvSync ∧ ¬ s.endsNormally t

/-- R103, R164: a step sends a write only with `RSV_SYNC` set, so after a resync; and the successful end of a write
consumes it, so that a WRDEV right after, a successful INIT's write included, faults and sends nothing. -/
def Obligations.EveryWriteFollowsResync : Prop :=
  (∀ (s t : State) w, step s = .next t → t.requests = s.requests ++ [.write s.addr w] → t.rsvSync = true) ∧
  (∀ (s t : State) p more, p.kind = .write → s.answerNext p .writeOk (.command 0x6000 :: more) →
    Host.Core.run core 2 s = .next t →
    t.fault = .unsyncedWrite ∧ t.faultCmd = 0x6000 ∧ t.requests = s.requests ∧ t.wf = s.wf)

/-- R81, R89: the default table passes every check, is what the builder makes of R82's numbers, and covers exactly the bits
R89 maps. -/
def Obligations.DefaultTablePassesChecks : Prop :=
  Config.default.wf ∧
  MaskTable.build
    #v[some ⟨0, 0xFF, 0⟩, some ⟨4, 0xF0, 4⟩, some ⟨1, 0xFF, 0⟩, some ⟨4, 0x0F, 0⟩, some ⟨2, 0xFF, 0⟩, some ⟨5, 0x0F, 0⟩,
       some ⟨3, 0xF0, 4⟩, some ⟨6, 0xFF, 0⟩, some ⟨3, 0x0C, 2⟩, some ⟨3, 0x03, 0⟩, some ⟨5, 0x10, 4⟩, some ⟨7, 0x18, 3⟩,
       some ⟨8, 0xFF, 0⟩, some ⟨9, 0x1F, 0⟩, none, none]
    #v[some ⟨1, 0x80, 7⟩, some ⟨1, 0x60, 5⟩, some ⟨1, 0x04, 2⟩, some ⟨1, 0x02, 1⟩, some ⟨1, 0x01, 0⟩, some ⟨3, 0x80, 7⟩,
       some ⟨3, 0x40, 6⟩, some ⟨3, 0x20, 5⟩, some ⟨1, 0x18, 3⟩, some ⟨2, 0xFF, 0⟩, some ⟨3, 0x1F, 0⟩, none, none, none,
       none, none] = .ok Config.default.table ∧
  (List.finRange 10).map (Config.default.table.rt.covered) =
    [0xFF, 0xFF, 0xFF, 0xFF, 0xFF, 0x1F, 0xFF, 0x18, 0xFF, 0x1F] ∧
  (List.finRange 4).map (Config.default.table.wt.covered) = [0x00, 0xFF, 0xFF, 0xFF]

/-- R81: the builder refuses a table that fails a check, and hands out only well-formed ones. -/
def Obligations.TableBuilderRefusesFailingTables : Prop :=
  ∀ (rt wt : Vector (Option RawSpec) 16),
    (∀ t, MaskTable.build rt wt = .ok t → t.wf) ∧
    (∀ (i : Fin 16) (r : RawSpec), rt[i] = some r → (10 ≤ r.byteIndex ∨ 8 ≤ r.shift ∨ 256 ≤ r.mask) →
      ∃ e, MaskTable.build rt wt = .error e) ∧
    (∀ (i : Fin 16) (r : RawSpec), wt[i] = some r → (4 ≤ r.byteIndex ∨ 8 ≤ r.shift ∨ 256 ≤ r.mask) →
      ∃ e, MaskTable.build rt wt = .error e) ∧
    (∀ i : Fin 14, rt[i.val]'(by omega) = none → ∃ e, MaskTable.build rt wt = .error e) ∧
    (∀ i ∈ [0, 1, 3, 4, 8, 9, 10], ∀ h : i < 16, wt[i] = none → ∃ e, MaskTable.build rt wt = .error e)

/-- R69: examples of the listing syntax, and what the assembler refuses. -/
def Obligations.AssemblerFollowsListing : Prop :=
  assembleLine "SETW W_FAST, 1" = .ok (some 0x3301) ∧ assembleLine "GETR R_FRM" = .ok (some 0x4800) ∧
  assembleLine "getmag ; one reading" = .ok (some 0x7000) ∧ assembleLine "SETW 15, 0x12" = .ok (some 0x3F12) ∧
  assembleLine "SETW W_FAST, 256" = .error .outOfRange ∧ assembleLine "; only a comment" = .ok none

/-- How a run ends normally (`State.endsNormally`). First clause, R166: a run without resets does so once there is no
fault, nothing pending and no command to come. Second clause, the MODEL'S READING (log 23, DEDUCED; R166 does not say
whether a run may contain a reset): a run that starts without a fault and reaches a faulted state, or in which a reset
abandoned a pending transfer, never does, whatever comes after: that command was not answered. -/
def Obligations.NormalEndNeedsEveryResponse : Prop :=
  (∀ (k : Nat) (s t : State), (∀ e ∈ s.events, e.isReset = false) → Host.Core.run core k s = .next t →
    t.fault = .none → t.pend = none → t.events.countP Event.isCommand = 0 → s.endsNormally t) ∧
  (∀ (k j : Nat) (s u t : State), Host.Core.run core k s = .next u → Host.Core.run core j u = .next t →
    ((s.fault = .none ∧ u.fault ≠ .none) ∨ (u.pend.isSome ∧ ∃ a rest, u.events = .reset a :: rest ∧ 0 < j)) →
    ¬ s.endsNormally t)
end

