-- ==== Sys2Proof/Laws/State.lean ====
section
/-! SUPPORT. One lemma per field per update, each true by `rfl`, so that no proof unfolds a record update. -/

namespace Sys2Proof.Machine

variable (s : State)

/-! `setSync` -/

@[simp] theorem setSync_rf : (setSync s).rf = s.rf := rfl
@[simp] theorem setSync_wf : (setSync s).wf = s.wf := rfl
@[simp] theorem setSync_phase : (setSync s).phase = s.phase := rfl
@[simp] theorem setSync_pend : (setSync s).pend = s.pend := rfl
@[simp] theorem setSync_lfc : (setSync s).lfc = s.lfc := rfl
@[simp] theorem setSync_rsvSync : (setSync s).rsvSync = true := rfl
@[simp] theorem setSync_fault : (setSync s).fault = s.fault := rfl
@[simp] theorem setSync_faultCmd : (setSync s).faultCmd = s.faultCmd := rfl
@[simp] theorem setSync_addr : (setSync s).addr = s.addr := rfl
@[simp] theorem setSync_cfg : (setSync s).cfg = s.cfg := rfl
@[simp] theorem setSync_events : (setSync s).events = s.events := rfl
@[simp] theorem setSync_requests : (setSync s).requests = s.requests := rfl
@[simp] theorem setSync_responses : (setSync s).responses = s.responses := rfl

/-! `clearSync` -/

@[simp] theorem clearSync_rf : (clearSync s).rf = s.rf := rfl
@[simp] theorem clearSync_wf : (clearSync s).wf = s.wf := rfl
@[simp] theorem clearSync_phase : (clearSync s).phase = s.phase := rfl
@[simp] theorem clearSync_pend : (clearSync s).pend = s.pend := rfl
@[simp] theorem clearSync_lfc : (clearSync s).lfc = s.lfc := rfl
@[simp] theorem clearSync_rsvSync : (clearSync s).rsvSync = false := rfl
@[simp] theorem clearSync_fault : (clearSync s).fault = s.fault := rfl
@[simp] theorem clearSync_faultCmd : (clearSync s).faultCmd = s.faultCmd := rfl
@[simp] theorem clearSync_addr : (clearSync s).addr = s.addr := rfl
@[simp] theorem clearSync_cfg : (clearSync s).cfg = s.cfg := rfl
@[simp] theorem clearSync_events : (clearSync s).events = s.events := rfl
@[simp] theorem clearSync_requests : (clearSync s).requests = s.requests := rfl
@[simp] theorem clearSync_responses : (clearSync s).responses = s.responses := rfl

/-! `setReady` -/

@[simp] theorem setReady_rf : (setReady s).rf = s.rf := rfl
@[simp] theorem setReady_wf : (setReady s).wf = s.wf := rfl
@[simp] theorem setReady_phase : (setReady s).phase = .ready := rfl
@[simp] theorem setReady_pend : (setReady s).pend = s.pend := rfl
@[simp] theorem setReady_lfc : (setReady s).lfc = s.lfc := rfl
@[simp] theorem setReady_rsvSync : (setReady s).rsvSync = s.rsvSync := rfl
@[simp] theorem setReady_fault : (setReady s).fault = s.fault := rfl
@[simp] theorem setReady_faultCmd : (setReady s).faultCmd = s.faultCmd := rfl
@[simp] theorem setReady_addr : (setReady s).addr = s.addr := rfl
@[simp] theorem setReady_cfg : (setReady s).cfg = s.cfg := rfl
@[simp] theorem setReady_events : (setReady s).events = s.events := rfl
@[simp] theorem setReady_requests : (setReady s).requests = s.requests := rfl
@[simp] theorem setReady_responses : (setReady s).responses = s.responses := rfl

/-! `mergeField` -/

@[simp] theorem mergeField_rf (f : WriteFieldSpec) (v : Byte) : (mergeField f v s).rf = s.rf := rfl
@[simp] theorem mergeField_wf (f : WriteFieldSpec) (v : Byte) : (mergeField f v s).wf = merge s.wf f v := rfl
@[simp] theorem mergeField_phase (f : WriteFieldSpec) (v : Byte) : (mergeField f v s).phase = s.phase := rfl
@[simp] theorem mergeField_pend (f : WriteFieldSpec) (v : Byte) : (mergeField f v s).pend = s.pend := rfl
@[simp] theorem mergeField_lfc (f : WriteFieldSpec) (v : Byte) : (mergeField f v s).lfc = s.lfc := rfl
@[simp] theorem mergeField_rsvSync (f : WriteFieldSpec) (v : Byte) : (mergeField f v s).rsvSync = s.rsvSync := rfl
@[simp] theorem mergeField_fault (f : WriteFieldSpec) (v : Byte) : (mergeField f v s).fault = s.fault := rfl
@[simp] theorem mergeField_faultCmd (f : WriteFieldSpec) (v : Byte) : (mergeField f v s).faultCmd = s.faultCmd := rfl
@[simp] theorem mergeField_addr (f : WriteFieldSpec) (v : Byte) : (mergeField f v s).addr = s.addr := rfl
@[simp] theorem mergeField_cfg (f : WriteFieldSpec) (v : Byte) : (mergeField f v s).cfg = s.cfg := rfl
@[simp] theorem mergeField_events (f : WriteFieldSpec) (v : Byte) : (mergeField f v s).events = s.events := rfl
@[simp] theorem mergeField_requests (f : WriteFieldSpec) (v : Byte) : (mergeField f v s).requests = s.requests := rfl
@[simp] theorem mergeField_responses (f : WriteFieldSpec) (v : Byte) : (mergeField f v s).responses = s.responses := rfl

/-! `replaceReadFrame` -/

@[simp] theorem replaceReadFrame_rf (b : ReadFrame) : (replaceReadFrame b s).rf = b := rfl
@[simp] theorem replaceReadFrame_wf (b : ReadFrame) : (replaceReadFrame b s).wf = s.wf := rfl
@[simp] theorem replaceReadFrame_phase (b : ReadFrame) : (replaceReadFrame b s).phase = s.phase := rfl
@[simp] theorem replaceReadFrame_pend (b : ReadFrame) : (replaceReadFrame b s).pend = s.pend := rfl
@[simp] theorem replaceReadFrame_lfc (b : ReadFrame) : (replaceReadFrame b s).lfc = s.lfc := rfl
@[simp] theorem replaceReadFrame_rsvSync (b : ReadFrame) : (replaceReadFrame b s).rsvSync = s.rsvSync := rfl
@[simp] theorem replaceReadFrame_fault (b : ReadFrame) : (replaceReadFrame b s).fault = s.fault := rfl
@[simp] theorem replaceReadFrame_faultCmd (b : ReadFrame) : (replaceReadFrame b s).faultCmd = s.faultCmd := rfl
@[simp] theorem replaceReadFrame_addr (b : ReadFrame) : (replaceReadFrame b s).addr = s.addr := rfl
@[simp] theorem replaceReadFrame_cfg (b : ReadFrame) : (replaceReadFrame b s).cfg = s.cfg := rfl
@[simp] theorem replaceReadFrame_events (b : ReadFrame) : (replaceReadFrame b s).events = s.events := rfl
@[simp] theorem replaceReadFrame_requests (b : ReadFrame) : (replaceReadFrame b s).requests = s.requests := rfl
@[simp] theorem replaceReadFrame_responses (b : ReadFrame) : (replaceReadFrame b s).responses = s.responses := rfl

/-! `respond` -/

@[simp] theorem respond_rf (r : Response) : (respond r s).rf = s.rf := rfl
@[simp] theorem respond_wf (r : Response) : (respond r s).wf = s.wf := rfl
@[simp] theorem respond_phase (r : Response) : (respond r s).phase = s.phase := rfl
@[simp] theorem respond_pend (r : Response) : (respond r s).pend = s.pend := rfl
@[simp] theorem respond_lfc (r : Response) : (respond r s).lfc = s.lfc := rfl
@[simp] theorem respond_rsvSync (r : Response) : (respond r s).rsvSync = s.rsvSync := rfl
@[simp] theorem respond_fault (r : Response) : (respond r s).fault = s.fault := rfl
@[simp] theorem respond_faultCmd (r : Response) : (respond r s).faultCmd = s.faultCmd := rfl
@[simp] theorem respond_addr (r : Response) : (respond r s).addr = s.addr := rfl
@[simp] theorem respond_cfg (r : Response) : (respond r s).cfg = s.cfg := rfl
@[simp] theorem respond_events (r : Response) : (respond r s).events = s.events := rfl
@[simp] theorem respond_requests (r : Response) : (respond r s).requests = s.requests := rfl
@[simp] theorem respond_responses (r : Response) : (respond r s).responses = s.responses ++ [r] := rfl

/-! `release` -/

@[simp] theorem release_rf : (release s).rf = s.rf := rfl
@[simp] theorem release_wf : (release s).wf = s.wf := rfl
@[simp] theorem release_phase : (release s).phase = s.phase := rfl
@[simp] theorem release_pend : (release s).pend = none := rfl
@[simp] theorem release_lfc : (release s).lfc = s.lfc := rfl
@[simp] theorem release_rsvSync : (release s).rsvSync = s.rsvSync := rfl
@[simp] theorem release_fault : (release s).fault = s.fault := rfl
@[simp] theorem release_faultCmd : (release s).faultCmd = s.faultCmd := rfl
@[simp] theorem release_addr : (release s).addr = s.addr := rfl
@[simp] theorem release_cfg : (release s).cfg = s.cfg := rfl
@[simp] theorem release_events : (release s).events = s.events := rfl
@[simp] theorem release_requests : (release s).requests = s.requests := rfl
@[simp] theorem release_responses : (release s).responses = s.responses := rfl

/-! `issueTransfer` -/

@[simp] theorem issueTransfer_rf (p : Pending) : (issueTransfer p s).rf = s.rf := rfl
@[simp] theorem issueTransfer_wf (p : Pending) : (issueTransfer p s).wf = s.wf := rfl
@[simp] theorem issueTransfer_phase (p : Pending) : (issueTransfer p s).phase = s.phase := rfl
@[simp] theorem issueTransfer_pend (p : Pending) : (issueTransfer p s).pend = some p := rfl
@[simp] theorem issueTransfer_lfc (p : Pending) : (issueTransfer p s).lfc = s.lfc := rfl
@[simp] theorem issueTransfer_rsvSync (p : Pending) : (issueTransfer p s).rsvSync = s.rsvSync := rfl
@[simp] theorem issueTransfer_fault (p : Pending) : (issueTransfer p s).fault = s.fault := rfl
@[simp] theorem issueTransfer_faultCmd (p : Pending) : (issueTransfer p s).faultCmd = s.faultCmd := rfl
@[simp] theorem issueTransfer_addr (p : Pending) : (issueTransfer p s).addr = s.addr := rfl
@[simp] theorem issueTransfer_cfg (p : Pending) : (issueTransfer p s).cfg = s.cfg := rfl
@[simp] theorem issueTransfer_events (p : Pending) : (issueTransfer p s).events = s.events := rfl
@[simp] theorem issueTransfer_requests (p : Pending) : (issueTransfer p s).requests = s.requests ++ [p.request s.addr] := rfl
@[simp] theorem issueTransfer_responses (p : Pending) : (issueTransfer p s).responses = s.responses := rfl

/-! `raiseFault` -/

@[simp] theorem raiseFault_rf (c : Cause) (w : CmdWord) : (raiseFault c w s).rf = s.rf := rfl
@[simp] theorem raiseFault_wf (c : Cause) (w : CmdWord) : (raiseFault c w s).wf = s.wf := rfl
@[simp] theorem raiseFault_phase (c : Cause) (w : CmdWord) : (raiseFault c w s).phase = s.phase := rfl
@[simp] theorem raiseFault_pend (c : Cause) (w : CmdWord) : (raiseFault c w s).pend = s.pend := rfl
@[simp] theorem raiseFault_lfc (c : Cause) (w : CmdWord) : (raiseFault c w s).lfc = s.lfc := rfl
@[simp] theorem raiseFault_rsvSync (c : Cause) (w : CmdWord) : (raiseFault c w s).rsvSync = s.rsvSync := rfl
@[simp] theorem raiseFault_fault (c : Cause) (w : CmdWord) : (raiseFault c w s).fault = c := rfl
@[simp] theorem raiseFault_faultCmd (c : Cause) (w : CmdWord) : (raiseFault c w s).faultCmd = w := rfl
@[simp] theorem raiseFault_addr (c : Cause) (w : CmdWord) : (raiseFault c w s).addr = s.addr := rfl
@[simp] theorem raiseFault_cfg (c : Cause) (w : CmdWord) : (raiseFault c w s).cfg = s.cfg := rfl
@[simp] theorem raiseFault_events (c : Cause) (w : CmdWord) : (raiseFault c w s).events = s.events := rfl
@[simp] theorem raiseFault_requests (c : Cause) (w : CmdWord) : (raiseFault c w s).requests = s.requests := rfl
@[simp] theorem raiseFault_responses (c : Cause) (w : CmdWord) : (raiseFault c w s).responses = s.responses := rfl

/-! `resetWith` -/

@[simp] theorem resetWith_rf (a : Byte) : (resetWith a s).rf = Vector.replicate 10 0 := rfl
@[simp] theorem resetWith_wf (a : Byte) : (resetWith a s).wf = Vector.replicate 4 0 := rfl
@[simp] theorem resetWith_phase (a : Byte) : (resetWith a s).phase = .uninit := rfl
@[simp] theorem resetWith_pend (a : Byte) : (resetWith a s).pend = none := rfl
@[simp] theorem resetWith_lfc (a : Byte) : (resetWith a s).lfc = 0 := rfl
@[simp] theorem resetWith_rsvSync (a : Byte) : (resetWith a s).rsvSync = false := rfl
@[simp] theorem resetWith_fault (a : Byte) : (resetWith a s).fault = .none := rfl
@[simp] theorem resetWith_faultCmd (a : Byte) : (resetWith a s).faultCmd = 0 := rfl
@[simp] theorem resetWith_addr (a : Byte) : (resetWith a s).addr = a := rfl
@[simp] theorem resetWith_cfg (a : Byte) : (resetWith a s).cfg = s.cfg := rfl
@[simp] theorem resetWith_events (a : Byte) : (resetWith a s).events = s.events := rfl
@[simp] theorem resetWith_requests (a : Byte) : (resetWith a s).requests = s.requests := rfl
@[simp] theorem resetWith_responses (a : Byte) : (resetWith a s).responses = s.responses := rfl

/-! `withEvents` -/

@[simp] theorem withEvents_rf (es : List Event) : (s.withEvents es).rf = s.rf := rfl
@[simp] theorem withEvents_wf (es : List Event) : (s.withEvents es).wf = s.wf := rfl
@[simp] theorem withEvents_phase (es : List Event) : (s.withEvents es).phase = s.phase := rfl
@[simp] theorem withEvents_pend (es : List Event) : (s.withEvents es).pend = s.pend := rfl
@[simp] theorem withEvents_lfc (es : List Event) : (s.withEvents es).lfc = s.lfc := rfl
@[simp] theorem withEvents_rsvSync (es : List Event) : (s.withEvents es).rsvSync = s.rsvSync := rfl
@[simp] theorem withEvents_fault (es : List Event) : (s.withEvents es).fault = s.fault := rfl
@[simp] theorem withEvents_faultCmd (es : List Event) : (s.withEvents es).faultCmd = s.faultCmd := rfl
@[simp] theorem withEvents_addr (es : List Event) : (s.withEvents es).addr = s.addr := rfl
@[simp] theorem withEvents_cfg (es : List Event) : (s.withEvents es).cfg = s.cfg := rfl
@[simp] theorem withEvents_events (es : List Event) : (s.withEvents es).events = es := rfl
@[simp] theorem withEvents_requests (es : List Event) : (s.withEvents es).requests = s.requests := rfl
@[simp] theorem withEvents_responses (es : List Event) : (s.withEvents es).responses = s.responses := rfl

end Sys2Proof.Machine
end

