-- ==== Sys2Proof/Laws/Frames.lean ====
section
/-! SUPPORT. The field primitives over frames: what one MERGE does to each byte, and what EXTRACT reads of it. -/

namespace Sys2Proof.Machine

variable {n : Nat} (frame : Vector Byte n) (s t : FieldSpec n) (v : Byte)

/-- R85 at the addressed byte. -/
@[simp] theorem merge_get_self :
    (merge frame s v)[s.byteIndex] = mergeByte frame[s.byteIndex] s.mask s.shift v := by
  simp [merge]

/-- R85: "every other byte" is unchanged. -/
theorem merge_get_other {i : Fin n} (h : i ≠ s.byteIndex) : (merge frame s v)[i] = frame[i] := by
  have : s.byteIndex.val ≠ i.val := fun e => h (Fin.ext e.symm)
  simp [merge, this]

/-- R85: "Bits outside `s.mask` in the addressed byte" are unchanged. -/
theorem mergeByte_outside (old mask : Byte) (shift : Fin 8) :
    mergeByte old mask shift v &&& ~~~mask = old &&& ~~~mask := by
  ext i hi
  simp [mergeByte]
  cases mask[i] <;> simp

/-- Every byte of a merged frame keeps its bits outside any set that holds the spec's mask. -/
theorem merge_outside {i : Fin n} {m : Byte} (h : i = s.byteIndex → s.mask &&& ~~~m = 0) :
    (merge frame s v)[i] &&& ~~~m = frame[i] &&& ~~~m := by
  by_cases hi : i = s.byteIndex
  · subst hi
    rw [merge_get_self]
    have hm := h rfl
    ext j hj
    have hj' : (s.mask &&& ~~~m)[j] = false := by rw [hm]; simp
    simp [mergeByte] at hj' ⊢
    cases hs : s.mask[j] <;> cases hmj : m[j] <;> simp_all
  · rw [merge_get_other frame s v hi]

/-- R84: EXTRACT reads one byte. -/
theorem extract_congr {f g : Vector Byte n} (h : f[s.byteIndex] = g[s.byteIndex]) : extract f s = extract g s := by
  simp only [extract, h]

/-- R84: "Its result lies in `0 .. (s.mask >> s.shift)`" for a zero byte: zero. -/
theorem extract_of_zero {f : Vector Byte n} (h : f[s.byteIndex] = 0) : extract f s = 0 := by
  simp [extract, h]

/-- A byte that is one of several lies inside their union. -/
theorem or_covers {a b m : Byte} (h : m = a ∨ m &&& ~~~b = 0) : m &&& ~~~(a ||| b) = 0 := by
  ext j hj
  rcases h with h | h
  · subst h
    cases hm : m[j] <;> simp [hm]
  · have h' := congrArg (fun v => v[j]) h
    simp at h' ⊢
    intro hm _
    exact h' hm

/-- R31: the mask of every row of a table lies inside what the table covers. -/
theorem row_covered {rows : List (Option (FieldSpec n))} (h : some s ∈ rows) :
    s.mask &&& ~~~(rows.foldr (fun row acc => rowMaskAt s.byteIndex row ||| acc) 0) = 0 := by
  induction rows with
  | nil => simp at h
  | cons row rows ih =>
    rcases List.mem_cons.1 h with h | h
    · exact or_covers (.inl (by simp [← h, rowMaskAt]))
    · exact or_covers (.inr (ih h))

/-- R31: the mask of every assigned write field lies inside what the table covers. -/
theorem lookup_covered {t : WriteTable} {fid : BitVec 4} {spec : WriteFieldSpec} (h : t.lookup fid = some spec) :
    spec.mask &&& ~~~(t.covered spec.byteIndex) = 0 :=
  row_covered spec (by rw [← h]; simp [WriteTable.lookup])

/-- R31: a MERGE into an assigned field leaves every uncovered bit of the write frame. -/
theorem merge_uncovered {t : WriteTable} {fid : BitVec 4} {spec : WriteFieldSpec} (h : t.lookup fid = some spec)
    (wf : WriteFrame) (x : Byte) (i : Fin 4) :
    (merge wf spec x)[i] &&& ~~~(t.covered i) = wf[i] &&& ~~~(t.covered i) :=
  merge_outside wf spec x fun e => e ▸ lookup_covered h

/-- R82: the ids of the write fields INIT and RESYNC name. -/
theorem lookup_named (t : WriteTable) :
    t.lookup 0 = some t.parity ∧ t.lookup 1 = some t.addr ∧ t.lookup 3 = some t.fast ∧ t.lookup 4 = some t.lowpower ∧
    t.lookup 8 = some t.res1 ∧ t.lookup 9 = some t.res2 ∧ t.lookup 10 = some t.res3 :=
  ⟨rfl, rfl, rfl, rfl, rfl, rfl, rfl⟩

end Sys2Proof.Machine
end

