-- ==== Sys2Proof/Laws/Ops.lean ====
section
/-! SUPPORT. One lemma for each shared operation that says everything it can do; proofs cite these and do not unfold the
operations. -/

namespace Sys2Proof.Machine

variable {s : State} {w : CmdWord} {k : State → State} {a : BusAnswer} {rest : List Event}

@[simp] theorem faulted_iff : s.faulted = true ↔ s.fault ≠ .none := by simp [State.faulted]

@[simp] theorem busy_iff : s.busy = true ↔ s.pend ≠ none := by
  cases h : s.pend <;> simp [State.busy, h]

/-- R144 check 1. -/
theorem whenFree_faulted (h : s.fault ≠ .none) : whenFree w k s = s := by simp [whenFree, h]

/-- R144 check 2. -/
theorem whenFree_busy (h : s.fault = .none) (hp : s.pend ≠ none) :
    whenFree w k s = raiseFault .commandWhileBusy w s := by simp [whenFree, h, hp]

/-- R144: past checks 1 and 2. -/
theorem whenFree_idle (h : s.idle) : whenFree w k s = k s := by simp [whenFree, h.1, h.2]

/-- R144, checks 1 and 2: everything `whenFree` can do. -/
theorem whenFree_cases (w : CmdWord) (k : State → State) (s : State) :
    (s.fault ≠ .none ∧ whenFree w k s = s) ∨
    (s.fault = .none ∧ s.pend ≠ none ∧ whenFree w k s = raiseFault .commandWhileBusy w s) ∨
    (s.idle ∧ whenFree w k s = k s) := by
  by_cases hf : s.fault = .none
  · by_cases hp : s.pend = none
    · exact .inr (.inr ⟨⟨hf, hp⟩, whenFree_idle ⟨hf, hp⟩⟩)
    · exact .inr (.inl ⟨hf, hp, whenFree_busy hf hp⟩)
  · exact .inl ⟨hf, whenFree_faulted hf⟩

/-- R45 and the read rows of R145: everything an answer to a pending read can do. -/
theorem onReadAnswer_cases (a : BusAnswer) (k : State → State) (s : State) :
    (∃ b, a = .readOk b ∧ onReadAnswer a k s = k (replaceReadFrame b s)) ∨
    (a = .err ∧ onReadAnswer a k s = respond Response.failed (release s)) ∨
    (a = .writeOk ∧ onReadAnswer a k s = s) := by
  cases a <;> simp [onReadAnswer]

/-- R46 and the write rows of R145: everything an answer to a pending write can do. -/
theorem onWriteAnswer_cases (a : BusAnswer) (k : State → State) (s : State) :
    (a = .writeOk ∧ onWriteAnswer a k s = k (clearSync s)) ∨
    (a = .err ∧ onWriteAnswer a k s = respond Response.failed (release s)) ∨
    (∃ b, a = .readOk b ∧ onWriteAnswer a k s = s) := by
  cases a <;> simp [onWriteAnswer]

/-- R102: `ECHO` writes `WF`, sets `RSV_SYNC`, and nothing else. -/
theorem echo_frame (s : State) : ∃ wf, echo s = { s with wf := wf, rsvSync := true } := ⟨_, rfl⟩

/-- R100: the configuration merges write `WF` and nothing else. -/
theorem programConfig_frame (s : State) : ∃ wf, programConfig s = { s with wf := wf } := ⟨_, rfl⟩

/-- R86: cancelling the resync touches `RSV_SYNC` alone. -/
theorem clearSyncIfReserved_eq (fid : BitVec 4) (s : State) :
    clearSyncIfReserved fid s = { s with rsvSync := !isReservedWriteId fid && s.rsvSync } := by
  cases h : isReservedWriteId fid <;> simp [clearSyncIfReserved, h, clearSync]

/-- R44, R143, R160: everything a bus answer can do. -/
theorem busAnswer_cases (n : Nat) (a : BusAnswer) (s : State) :
    busAnswer n a s = s ∨
    ∃ p, s.fault = .none ∧ s.pend = some p ∧ n + 1 = s.requests.length ∧ busAnswer n a s = complete p a s := by
  by_cases hf : s.fault = .none
  · cases hp : s.pend with
    | none => exact .inl (by simp [busAnswer, hf, hp])
    | some p =>
      by_cases hn : n + 1 = s.requests.length
      · exact .inr ⟨p, hf, rfl, hn, by simp [busAnswer, hf, hp, hn]⟩
      · exact .inl (by simp [busAnswer, hp, hn])
  · exact .inl (by simp [busAnswer, hf])

/-- The step without an event. -/
theorem step_wait (h : s.events = []) : step s = .next s := by simp [step, nextEvent, h]

/-- The step that takes a command word. -/
theorem step_command (h : s.events = .command w :: rest) : step s = issueWord w (s.withEvents rest) := by
  simp [step, nextEvent, h, handleEvent, State.withEvents]

/-- The step that takes a bus answer. -/
theorem step_answer {n : Nat} (h : s.events = .answer n a :: rest) :
    step s = .next (busAnswer n a (s.withEvents rest)) := by
  simp [step, nextEvent, h, handleEvent, State.withEvents]

/-- The step that takes a reset. -/
theorem step_reset {b : Byte} (h : s.events = .reset b :: rest) : step s = .next (resetWith b (s.withEvents rest)) := by
  simp [step, nextEvent, h, handleEvent, State.withEvents]

/-- R60: a word that decodes runs its command; one that does not is illegal. -/
theorem issueWord_cases (w : CmdWord) (s : State) :
    (∃ i, decode s.cfg w = .ok i ∧ issueWord w s = exec i s) ∨
    (∃ e, decode s.cfg w = .error e ∧ issueWord w s = .next (whenFree w (raiseFault .illegalCommand w) s)) := by
  cases h : decode s.cfg w with
  | error e => exact .inr ⟨e, rfl, by simp [issueWord, h, execIllegal]⟩
  | ok i => exact .inl ⟨i, rfl, by simp [issueWord, h]⟩

end Sys2Proof.Machine
end

