-- ==== Sys2Proof/Laws/PerInstr.lean ====
section
/-! SUPPORT. The fields of an encoded word (30_encoding.md R61), and the family `MatchesRow`: the word of a command selects
the command's row of the opcode map (R62). -/

namespace Sys2Proof

variable (op fid : BitVec 4) (imm : Byte)

/-- R61: the word as a number. -/
theorem fieldsWord_toNat : (fieldsWord op fid imm).toNat = op.toNat * 4096 + fid.toNat * 256 + imm.toNat := by
  have hi := imm.isLt
  have hf := fid.isLt
  simp only [fieldsWord, BitVec.toNat_append]
  rw [← Nat.shiftLeft_add_eq_or_of_lt hf, ← Nat.shiftLeft_add_eq_or_of_lt hi]
  simp only [Nat.shiftLeft_eq]
  omega

@[simp] theorem opField_fieldsWord : opField (fieldsWord op fid imm) = op := by
  have hi := imm.isLt
  have hf := fid.isLt
  have ho := op.isLt
  apply BitVec.eq_of_toNat_eq
  simp only [opField, BitVec.extractLsb'_toNat, fieldsWord_toNat, Nat.shiftRight_eq_div_pow]
  omega

@[simp] theorem fidField_fieldsWord : fidField (fieldsWord op fid imm) = fid := by
  have hi := imm.isLt
  have hf := fid.isLt
  apply BitVec.eq_of_toNat_eq
  simp only [fidField, BitVec.extractLsb'_toNat, fieldsWord_toNat, Nat.shiftRight_eq_div_pow]
  omega

@[simp] theorem immField_fieldsWord : immField (fieldsWord op fid imm) = imm := by
  have hi := imm.isLt
  apply BitVec.eq_of_toNat_eq
  simp only [immField, BitVec.extractLsb'_toNat, fieldsWord_toNat, Nat.shiftRight_eq_div_pow]
  omega

end Sys2Proof

namespace Sys2Proof.Laws.MatchesRow

/-- R62: "A word `w` selects a row when `(w & mask) == match`". -/
def Statement (i : Instr) : Prop := encode i &&& i.maskBits = i.matchBits

theorem init : Statement .init := by unfold Statement; decide

theorem resync : Statement .resync := by unfold Statement; decide

theorem setw (fid : BitVec 4) (imm : Byte) : Statement (.setw fid imm) := by
  have hf := fid.isLt
  have hi := imm.isLt
  simp only [Statement, encode, Instr.maskBits, Instr.matchBits]
  ext i hi
  have : i = 0 ∨ i = 1 ∨ i = 2 ∨ i = 3 ∨ i = 4 ∨ i = 5 ∨ i = 6 ∨ i = 7 ∨ i = 8 ∨ i = 9 ∨ i = 10 ∨ i = 11 ∨
    i = 12 ∨ i = 13 ∨ i = 14 ∨ i = 15 := by omega
  rcases this with h | h | h | h | h | h | h | h | h | h | h | h | h | h | h | h <;> subst h <;>
    rw [BitVec.getElem_and] <;>
    simp [BitVec.getElem_eq_testBit_toNat, fieldsWord_toNat, Nat.testBit_eq_decide_div_mod_eq] <;> omega

theorem getr (fid : BitVec 4) : Statement (.getr fid) := by
  revert fid
  unfold Statement
  decide

theorem rddev : Statement .rddev := by unfold Statement; decide

theorem wrdev : Statement .wrdev := by unfold Statement; decide

theorem getmag : Statement .getmag := by unfold Statement; decide

end Sys2Proof.Laws.MatchesRow
end

