-- ==== Sys2Proof/Laws/Steps.lean ====
section
/-! SUPPORT. What one command, one bus answer and one step can do, each said once as an inductive proposition with one
constructor for each possibility, guards included; proofs about every step go by cases on these. -/

namespace Sys2Proof.Machine

/-- Everything `exec i` can do to `s` (R144, and the issue parts of R86, R87, R100, R101, R104, R105, R124). -/
inductive CommandEffect (s : State) : Instr → State → Prop where
  | notAccepted (i : Instr) (hf : s.fault ≠ .none) : CommandEffect s i s
  | busy (i : Instr) (hf : s.fault = .none) (hp : s.pend ≠ none) :
      CommandEffect s i (raiseFault .commandWhileBusy (encode i) s)
  | unassigned (i : Instr) (hi : s.idle) (hw : i.wellFormed s.cfg = false) :
      CommandEffect s i (raiseFault .illegalCommand (encode i) s)
  | init (hi : s.idle) : CommandEffect s .init (issueTransfer .initRead s)
  | resync (hi : s.idle) : CommandEffect s .resync (issueTransfer .resyncRead s)
  | setw (fid : BitVec 4) (v : Byte) (spec : WriteFieldSpec) (hi : s.idle) (hs : s.cfg.table.wt.lookup fid = some spec) :
      CommandEffect s (.setw fid v) (respond Response.done (clearSyncIfReserved fid (mergeField spec v s)))
  | getr (fid : BitVec 4) (spec : ReadFieldSpec) (hi : s.idle) (hs : s.cfg.table.rt.lookup fid = some spec) :
      CommandEffect s (.getr fid) (respond ⟨.ok, .byte (extract s.rf spec)⟩ s)
  | rddev (hi : s.idle) : CommandEffect s .rddev (issueTransfer .rddevRead s)
  | wrdev (hi : s.idle) (hr : s.rsvSync = true) : CommandEffect s .wrdev (issueTransfer (.wrdevWrite s.wf) s)
  | unsynced (hi : s.idle) (hr : s.rsvSync = false) :
      CommandEffect s .wrdev (raiseFault .unsyncedWrite (encode .wrdev) s)
  | getmag (hi : s.idle) (hp : s.phase = .ready) : CommandEffect s .getmag (issueTransfer .getmagRead s)
  | uninitialized (hi : s.idle) (hp : s.phase = .uninit) :
      CommandEffect s .getmag (raiseFault .notInitialized (encode .getmag) s)

/-- Every command answers a next state, and it is one of these. -/
theorem exec_effect (i : Instr) (s : State) : ∃ t, exec i s = .next t ∧ CommandEffect s i t := by
  by_cases hf : s.fault = .none
  · by_cases hp : s.pend = none
    · have hi : s.idle := ⟨hf, hp⟩
      cases i with
      | init => exact ⟨_, by simp [exec, execInit, whenFree_idle hi, busRead], .init hi⟩
      | resync => exact ⟨_, by simp [exec, execResync, whenFree_idle hi, busRead], .resync hi⟩
      | setw fid v =>
        cases h : s.cfg.table.wt.lookup fid with
        | none => exact ⟨_, by simp [exec, execSetw, whenFree_idle hi, h], .unassigned _ hi (by simp [Instr.wellFormed, h])⟩
        | some spec => exact ⟨_, by simp [exec, execSetw, whenFree_idle hi, h], .setw fid v spec hi h⟩
      | getr fid =>
        cases h : s.cfg.table.rt.lookup fid with
        | none => exact ⟨_, by simp [exec, execGetr, whenFree_idle hi, h], .unassigned _ hi (by simp [Instr.wellFormed, h])⟩
        | some spec => exact ⟨_, by simp [exec, execGetr, whenFree_idle hi, h], .getr fid spec hi h⟩
      | rddev => exact ⟨_, by simp [exec, execRddev, whenFree_idle hi, busRead], .rddev hi⟩
      | wrdev =>
        cases h : s.rsvSync with
        | false => exact ⟨_, by simp [exec, execWrdev, whenFree_idle hi, h], .unsynced hi h⟩
        | true => exact ⟨_, by simp [exec, execWrdev, whenFree_idle hi, h, busWrite], .wrdev hi h⟩
      | getmag =>
        cases h : s.phase with
        | uninit => exact ⟨_, by simp [exec, execGetmag, whenFree_idle hi, h], .uninitialized hi h⟩
        | ready => exact ⟨_, by simp [exec, execGetmag, whenFree_idle hi, h, busRead], .getmag hi h⟩
    · refine ⟨raiseFault .commandWhileBusy (encode i) s, ?_, .busy i hf hp⟩
      cases i <;>
        simp [exec, execInit, execResync, execSetw, execGetr, execRddev, execWrdev, execGetmag, whenFree_busy hf hp]
  · refine ⟨s, ?_, .notAccepted i hf⟩
    cases i <;>
      simp [exec, execInit, execResync, execSetw, execGetr, execRddev, execWrdev, execGetmag, whenFree_faulted hf]

/-- Everything the bus answer `a` to request number `n` can do to `s` (R45, R46, R145, and the completion parts of R100,
R101, R104, R105, R124). -/
inductive AnswerEffect (s : State) (n : Nat) : BusAnswer → State → Prop where
  | dropped (a : BusAnswer) : AnswerEffect s n a s
  | failed (p : Pending) (hf : s.fault = .none) (hp : s.pend = some p) (hn : n + 1 = s.requests.length) :
      AnswerEffect s n .err (respond Response.failed (release s))
  | initRead (b : ReadFrame) (hf : s.fault = .none) (hp : s.pend = some .initRead) (hn : n + 1 = s.requests.length) :
      AnswerEffect s n (.readOk b) (initReadDone (replaceReadFrame b s))
  | resync (b : ReadFrame) (hf : s.fault = .none) (hp : s.pend = some .resyncRead) (hn : n + 1 = s.requests.length) :
      AnswerEffect s n (.readOk b) (resyncDone (replaceReadFrame b s))
  | rddev (b : ReadFrame) (hf : s.fault = .none) (hp : s.pend = some .rddevRead) (hn : n + 1 = s.requests.length) :
      AnswerEffect s n (.readOk b) (rddevDone (replaceReadFrame b s))
  | getmag (b : ReadFrame) (hf : s.fault = .none) (hp : s.pend = some .getmagRead) (hn : n + 1 = s.requests.length) :
      AnswerEffect s n (.readOk b) (getmagDone (replaceReadFrame b s))
  | initWrite (w : WriteFrame) (hf : s.fault = .none) (hp : s.pend = some (.initWrite w))
      (hn : n + 1 = s.requests.length) : AnswerEffect s n .writeOk (initWriteDone (clearSync s))
  | wrdev (w : WriteFrame) (hf : s.fault = .none) (hp : s.pend = some (.wrdevWrite w))
      (hn : n + 1 = s.requests.length) : AnswerEffect s n .writeOk (wrdevDone (clearSync s))

theorem busAnswer_effect (n : Nat) (a : BusAnswer) (s : State) : AnswerEffect s n a (busAnswer n a s) := by
  rcases busAnswer_cases n a s with h | ⟨p, hf, hp, hn, h⟩
  · rw [h]; exact .dropped a
  · rw [h]
    cases p with
    | initRead =>
      cases a with
      | readOk b => exact .initRead b hf hp hn
      | writeOk => exact .dropped _
      | err => exact .failed _ hf hp hn
    | initWrite w =>
      cases a with
      | readOk b => exact .dropped _
      | writeOk => exact .initWrite w hf hp hn
      | err => exact .failed _ hf hp hn
    | resyncRead =>
      cases a with
      | readOk b => exact .resync b hf hp hn
      | writeOk => exact .dropped _
      | err => exact .failed _ hf hp hn
    | rddevRead =>
      cases a with
      | readOk b => exact .rddev b hf hp hn
      | writeOk => exact .dropped _
      | err => exact .failed _ hf hp hn
    | wrdevWrite w =>
      cases a with
      | readOk b => exact .dropped _
      | writeOk => exact .wrdev w hf hp hn
      | err => exact .failed _ hf hp hn
    | getmagRead =>
      cases a with
      | readOk b => exact .getmag b hf hp hn
      | writeOk => exact .dropped _
      | err => exact .failed _ hf hp hn

/-- Everything a step can do: wait, run a command, refuse to accept or fault an illegal word, take an answer, reset. -/
inductive StepEffect (s : State) : State → Prop where
  | wait (he : s.events = []) : StepEffect s s
  | command (w : CmdWord) (rest : List Event) (i : Instr) (t : State) (he : s.events = .command w :: rest)
      (hd : decode s.cfg w = .ok i) (hc : CommandEffect (s.withEvents rest) i t) : StepEffect s t
  | illegalNotAccepted (w : CmdWord) (rest : List Event) (e : Illegal) (he : s.events = .command w :: rest)
      (hd : decode s.cfg w = .error e) (hf : s.fault ≠ .none) : StepEffect s (s.withEvents rest)
  | illegalBusy (w : CmdWord) (rest : List Event) (e : Illegal) (he : s.events = .command w :: rest)
      (hd : decode s.cfg w = .error e) (hf : s.fault = .none) (hp : s.pend ≠ none) :
      StepEffect s (raiseFault .commandWhileBusy w (s.withEvents rest))
  | illegal (w : CmdWord) (rest : List Event) (e : Illegal) (he : s.events = .command w :: rest)
      (hd : decode s.cfg w = .error e) (hi : s.idle) :
      StepEffect s (raiseFault .illegalCommand w (s.withEvents rest))
  | answer (n : Nat) (a : BusAnswer) (rest : List Event) (t : State) (he : s.events = .answer n a :: rest)
      (ha : AnswerEffect (s.withEvents rest) n a t) : StepEffect s t
  | reset (a : Byte) (rest : List Event) (he : s.events = .reset a :: rest) :
      StepEffect s (resetWith a (s.withEvents rest))

/-- A step always answers a next state, and it is one of these. -/
theorem step_effect (s : State) : ∃ t, step s = .next t ∧ StepEffect s t := by
  cases he : s.events with
  | nil => exact ⟨s, step_wait he, .wait he⟩
  | cons e rest =>
    cases e with
    | command w =>
      rw [step_command he]
      rcases issueWord_cases w (s.withEvents rest) with ⟨i, hd, hi⟩ | ⟨e, hd, hi⟩
      · obtain ⟨t, ht, hc⟩ := exec_effect i (s.withEvents rest)
        exact ⟨t, hi.trans ht, .command w rest i t he hd hc⟩
      · refine ⟨_, hi, ?_⟩
        rcases whenFree_cases w (raiseFault .illegalCommand w) (s.withEvents rest) with ⟨hf, h⟩ | ⟨hf, hp, h⟩ | ⟨hid, h⟩
        · rw [h]; exact .illegalNotAccepted w rest e he hd hf
        · rw [h]; exact .illegalBusy w rest e he hd hf hp
        · rw [h]; exact .illegal w rest e he hd hid
    | answer n a => exact ⟨_, step_answer he, .answer n a rest _ he (busAnswer_effect n a _)⟩
    | reset a => exact ⟨_, step_reset he, .reset a rest he⟩

/-- The inversion of a step, for use on a hypothesis. -/
theorem step_inversion {s t : State} (h : step s = .next t) : StepEffect s t := by
  obtain ⟨t', ht', he⟩ := step_effect s
  rw [ht'] at h
  injection h with h
  exact h ▸ he

/-- The inversion of a command, for use on a hypothesis. -/
theorem exec_inversion {i : Instr} {s t : State} (h : exec i s = .next t) : CommandEffect s i t := by
  obtain ⟨t', ht', he⟩ := exec_effect i s
  rw [ht'] at h
  injection h with h
  exact h ▸ he

/-- The answer the pending request waits for is taken, and completes it. -/
theorem step_answerNext {s : State} {p : Pending} {a : BusAnswer} {rest : List Event} (h : s.answerNext p a rest) :
    step s = .next (complete p a (s.withEvents rest)) := by
  obtain ⟨hf, hp, n, hn, he⟩ := h
  rw [step_answer he]
  simp [busAnswer, hf, hp, hn]

end Sys2Proof.Machine
end

