-- ==== Sys2Proof/Tests/Slice0.lean ====
section
/-! SUPPORT. The model's own tests. Expected results are the spec's, by the vector or rule each comment names; and for every
statement with hypotheses a `witness_…` theorem shows a state and operands that meet them. -/

namespace Sys2Proof.Tests

open Sys2Proof.Machine

/-! ### Small states -/

/-- The frame F1 of 95_test_vectors.md. -/
def f1 : ReadFrame := #v[0x12, 0x34, 0x56, 0x78, 0x9A, 0xBC, 0, 0, 0, 0]

/-- The frame F2 of 95_test_vectors.md. -/
def f2 : ReadFrame := #v[0x80, 0x7F, 0xFF, 0xA5, 0x0F, 0xE3, 0x5C, 0x5B, 0xA7, 0xF3]

/-- Reset with the address 0x5E of the spec's programs. -/
def base : State := resetWith 0x5E State.reset

/-- `base` with the given events to come. -/
def withNext (es : List Event) : State := base.withEvents es

/-- A machine that waits for the answer to `p`, with the answer `a` next and the given write frame. -/
def waiting (p : Pending) (a : BusAnswer) (wf : WriteFrame) : State :=
  { base with pend := some p, requests := [p.request 0x5E], events := [.answer 0 a], wf := wf, rsvSync := true }

/-- A fault as it stands after `GETMAG` before INIT (P4). -/
def faultedBase : State := { base with fault := .notInitialized, faultCmd := 0x7000 }

/-- What a state of an outcome answers to a question; `none` where the outcome is no next state. -/
def ask {α : Type} (o : Host.Outcome State Fault Refusal) (q : State → α) : Option α :=
  match o with
  | .next s => some (q s)
  | .fault _ => none
  | .refused _ => none

/-! ### Decoding (V2.1) -/

theorem test_decode_setw : decode Config.default 0b0011000100000011 = .ok (.setw 1 3) := by decide
theorem test_decode_setw_last : decode Config.default 0b0011101011111111 = .ok (.setw 10 0xFF) := by decide
theorem test_decode_setw_unassigned : decode Config.default 0x3B00 = .error .unassignedWriteField := by decide
theorem test_decode_getr : decode Config.default 0b0100100000000000 = .ok (.getr 8) := by decide
theorem test_decode_getr_reserved : decode Config.default 0x4D01 = .error .reservedBits := by decide
theorem test_decode_getr_unassigned : decode Config.default 0x4E00 = .error .unassignedReadField := by decide
theorem test_decode_init : decode Config.default 0b0001000000000000 = .ok .init := by decide
theorem test_decode_init_reserved : decode Config.default 0x1800 = .error .reservedBits := by decide
theorem test_decode_resync : decode Config.default 0b0010000000000000 = .ok .resync := by decide
theorem test_decode_rddev : decode Config.default 0b0101000000000000 = .ok .rddev := by decide
theorem test_decode_rddev_reserved : decode Config.default 0x5010 = .error .reservedBits := by decide
theorem test_decode_wrdev : decode Config.default 0b0110000000000000 = .ok .wrdev := by decide
theorem test_decode_getmag : decode Config.default 0b0111000000000000 = .ok .getmag := by decide
theorem test_decode_zero : decode Config.default 0x0000 = .error .opcode := by decide
theorem test_decode_op8 : decode Config.default 0x8000 = .error .opcode := by decide

/-! ### The checks of WellFormed: an ill-formed term for each, refused (R81, R63) -/

/-- R82's read rows as raw numbers. -/
def rawRt : Vector (Option RawSpec) 16 :=
  #v[some ⟨0, 0xFF, 0⟩, some ⟨4, 0xF0, 4⟩, some ⟨1, 0xFF, 0⟩, some ⟨4, 0x0F, 0⟩, some ⟨2, 0xFF, 0⟩, some ⟨5, 0x0F, 0⟩,
     some ⟨3, 0xF0, 4⟩, some ⟨6, 0xFF, 0⟩, some ⟨3, 0x0C, 2⟩, some ⟨3, 0x03, 0⟩, some ⟨5, 0x10, 4⟩, some ⟨7, 0x18, 3⟩,
     some ⟨8, 0xFF, 0⟩, some ⟨9, 0x1F, 0⟩, none, none]

/-- R82's write rows as raw numbers. -/
def rawWt : Vector (Option RawSpec) 16 :=
  #v[some ⟨1, 0x80, 7⟩, some ⟨1, 0x60, 5⟩, some ⟨1, 0x04, 2⟩, some ⟨1, 0x02, 1⟩, some ⟨1, 0x01, 0⟩, some ⟨3, 0x80, 7⟩,
     some ⟨3, 0x40, 6⟩, some ⟨3, 0x20, 5⟩, some ⟨1, 0x18, 3⟩, some ⟨2, 0xFF, 0⟩, some ⟨3, 0x1F, 0⟩, none, none, none,
     none, none]

theorem smoke_default_builds : MaskTable.build rawRt rawWt = .ok MaskTable.default := by decide
theorem smoke_tw1_index : MaskTable.build rawRt (rawWt.set 0 (some ⟨4, 0x80, 7⟩)) = .error .index := by decide
theorem smoke_tw2_shift : MaskTable.build (rawRt.set 8 (some ⟨3, 0x0C, 8⟩)) rawWt = .error .shift := by decide
theorem smoke_tw3_gap : MaskTable.build (rawRt.set 13 (some ⟨9, 0x15, 0⟩)) rawWt = .error .run := by decide
theorem smoke_tw3_below_shift : MaskTable.build (rawRt.set 11 (some ⟨7, 0x1C, 3⟩)) rawWt = .error .run := by decide
theorem smoke_tw3_empty : MaskTable.build (rawRt.set 10 (some ⟨5, 0x00, 4⟩)) rawWt = .error .run := by decide
theorem smoke_tw3_wide : MaskTable.build (rawRt.set 12 (some ⟨8, 0x1FF, 0⟩)) rawWt = .error .run := by decide
theorem smoke_tw4_disjoint : MaskTable.build (rawRt.set 14 (some ⟨3, 0x04, 2⟩)) rawWt = .error .disjoint := by decide
theorem smoke_tw5_names : MaskTable.build rawRt (rawWt.set 3 none) = .error .names := by decide
theorem smoke_tw6_axis : MaskTable.build (rawRt.set 5 (some ⟨5, 0x07, 0⟩)) rawWt = .error .axisWidths := by decide
theorem smoke_tw7_echo : MaskTable.build rawRt (rawWt.set 10 (some ⟨3, 0x0F, 0⟩)) = .error .echoWidths := by decide
/-- R82, D31: a dropped optional row is admitted, and its id becomes illegal. -/
theorem smoke_dropped_row : (MaskTable.build rawRt (rawWt.set 2 none)).toOption.map
    (fun t => (Instr.setw 2 1).wellFormed ⟨t, .binary32, 0⟩) = some false := by decide
theorem smoke_setw_unassigned : (Instr.setw 11 0).wellFormed Config.default = false := by decide
theorem smoke_getr_unassigned : (Instr.getr 14).wellFormed Config.default = false := by decide

/-! ### One step for each command -/

/-- V2.3: WF `00 9B 00 00`, SETW W_ADDR, 0xFF. -/
theorem test_setw_truncates :
    ask (exec (.setw 1 0xFF) { base with wf := #v[0, 0x9B, 0, 0], rsvSync := true }) (fun s => (s.wf, s.rsvSync)) =
      some (#v[0, 0xFB, 0, 0], true) := by decide

/-- V2.3: WF `00 83 00 00`, SETW W_RES1, 5 cancels the resync. -/
theorem test_setw_reserved :
    ask (exec (.setw 8 5) { base with wf := #v[0, 0x83, 0, 0], rsvSync := true }) (fun s => (s.wf, s.rsvSync)) =
      some (#v[0, 0x8B, 0, 0], false) := by decide

/-- V2.2: GETR R_FRM of F1 is 2. -/
theorem test_getr_frm :
    ask (exec (.getr 8) { base with rf := f1 }) (fun s => s.responses) = some [⟨.ok, .byte 2⟩] := by decide

/-- V2.2: `RF[7] = 0xE7` gives R_RES1 0: uncovered bits never leak. -/
theorem test_getr_uncovered :
    ask (exec (.getr 11) { base with rf := f1.set 7 0xE7 }) (fun s => s.responses) = some [⟨.ok, .byte 0⟩] := by decide

/-- P1: INIT from reset requests a read of 0x5E. -/
theorem test_init_issue :
    ask (exec .init base) (fun s => (s.pend, s.requests)) = some (some .initRead, [.read 0x5E]) := by decide

/-- V2.7: WF `00 04 00 E0`, INIT read `Ok(F2)`: WF `00 9F A7 F3`, the fields INIT does not name kept. -/
theorem test_init_read :
    ask (step (waiting .initRead (.readOk f2) #v[0, 0x04, 0, 0xE0])) (fun s => (s.wf, s.pend)) =
      some (#v[0, 0x9F, 0xA7, 0xF3], some (.initWrite #v[0, 0x9F, 0xA7, 0xF3])) := by decide

/-- V2.7: RESYNC, WF `00 83 00 00`, read with `F[7..9] = 08 FF 1F`. -/
theorem test_resync_read :
    ask (step { waiting .resyncRead (.readOk #v[0, 0, 0, 0, 0, 0, 0, 0x08, 0xFF, 0x1F]) #v[0, 0x83, 0, 0] with
      rsvSync := false }) (fun s => (s.wf, s.rsvSync, s.responses)) =
      some (#v[0, 0x8B, 0xFF, 0x1F], true, [⟨.ok, .empty⟩]) := by decide

/-- V2.7: RDDEV, read `Ok(F1)`. -/
theorem test_rddev_read :
    ask (step (waiting .rddevRead (.readOk f1) #v[0, 0, 0, 0])) (fun s => (s.rf, s.pend)) = some (f1, none) := by decide

/-- V2.7: WRDEV with RSV_SYNC 1 sends `00 8B FF 1F`. -/
theorem test_wrdev_issue :
    ask (exec .wrdev { base with wf := #v[0, 0x8B, 0xFF, 0x1F], rsvSync := true }) (fun s => s.requests) =
      some [.write 0x5E #v[0, 0x8B, 0xFF, 0x1F]] := by decide

/-- V2.8: WRDEV with RSV_SYNC 0. -/
theorem test_wrdev_unsynced :
    ask (exec .wrdev base) (fun s => (s.fault, s.faultCmd, s.requests)) = some (.unsyncedWrite, 0x6000, []) := by decide

/-- V2.6: GETMAG of F2, binary32. -/
theorem test_getmag_f2 :
    ask (step (waiting .getmagRead (.readOk f2) #v[0, 0, 0, 0])) (fun s => s.responses) =
      some [⟨.ok, .magnet (.b32 0xC348B439) (.b32 0x43489B22) (.b32 0xBFA3126E)⟩] := by decide

/-- V2.6: GETMAG of F1, binary64. -/
theorem test_getmag_f1_binary64 :
    magnetVals { Config.default with fmt := .binary64 } f1 =
      .magnet (.b64 0x403D1B22D0E56042) (.b64 0x4054A10624DD2F1B) (.b64 0x406100C49BA5E354) := by decide

/-- V2.5, a corner: the product `1000 * K` rounds to exactly 98.0 in binary32. -/
theorem test_scale_1000 : scale .binary32 1000 = .b32 0x42C40000 := by decide

/-- V2.4: a negative high byte with a nonzero low nibble. -/
theorem test_reconstruct_negative : reconstruct 0x80 0x0F = 0xF80F := by decide

/-- V2.8: busy is checked before decoding. -/
theorem test_busy_before_decode :
    ask (step { waiting .rddevRead .err #v[0, 0, 0, 0] with events := [.command 0x0000] })
      (fun s => (s.fault, s.faultCmd, s.pend)) = some (.commandWhileBusy, 0x0000, some .rddevRead) := by decide

/-- V2.8: decoding is checked before the phase. -/
theorem test_decode_before_phase :
    ask (step (withNext [.command 0x7001])) (fun s => (s.fault, s.faultCmd)) = some (.illegalCommand, 0x7001) := by decide

/-- R69: the assembler makes the words the rule names. -/
theorem test_assemble_setw : assembleLine "SETW W_FAST, 1" = .ok (some 0x3301) := by decide

/-! ### Witnesses -/

theorem witness_DecodeEncodeRoundTrip :
    (Instr.setw 10 0xFF).wellFormed Config.default = true ∧ (Instr.getr 13).wellFormed Config.default = true := by decide

theorem witness_EncodeDecodeRoundTrip : decode Config.default 0x3AFF = .ok (.setw 10 0xFF) := by decide

theorem witness_IllegalWordsFaultWithNoOtherEffect :
    (withNext [.command 0x3B00]).idle ∧ (withNext [.command 0x3B00]).events = .command 0x3B00 :: [] ∧
    decode (withNext [.command 0x3B00]).cfg 0x3B00 = .error .unassignedWriteField := by decide

theorem witness_StepRunsDecodedCommand :
    (withNext [.command 0x3103]).events = .command 0x3103 :: [] ∧
    decode (withNext [.command 0x3103]).cfg 0x3103 = .ok (.setw 1 3) := by decide

theorem witness_PlacedWordRunsNext : decode base.cfg 0x7000 = .ok .getmag := by decide

theorem witness_EventlessStepWaits : base.events = [] := by decide

theorem witness_AcceptanceOrderPicksOneCause_faulted :
    (faultedBase.withEvents [.command 0x1000]).events = .command 0x1000 :: [] ∧ faultedBase.fault ≠ .none := by decide

theorem witness_AcceptanceOrderPicksOneCause_busy :
    ({ base with pend := some .rddevRead, events := [.command 0x0000] } : State).fault = .none ∧
    ({ base with pend := some .rddevRead, events := [.command 0x0000] } : State).pend ≠ none := by decide

theorem witness_AcceptanceOrderPicksOneCause_illegal :
    (withNext [.command 0x7001]).idle ∧ ∃ e, decode (withNext [.command 0x7001]).cfg 0x7001 = .error e :=
  ⟨by decide, .reservedBits, by decide⟩

theorem witness_AcceptanceOrderPicksOneCause_uninit :
    (withNext [.command 0x7000]).idle ∧ decode base.cfg 0x7000 = .ok .getmag ∧ base.phase = .uninit := by decide

theorem witness_AcceptanceOrderPicksOneCause_unsynced :
    (withNext [.command 0x6000]).idle ∧ decode base.cfg 0x6000 = .ok .wrdev ∧ base.rsvSync = false := by decide

theorem witness_AcceptanceOrderPicksOneCause_runs :
    (withNext [.command 0x5000]).idle ∧ decode base.cfg 0x5000 = .ok .rddev ∧
    ¬ (Instr.rddev = .getmag ∧ base.phase = .uninit) ∧ ¬ (Instr.rddev = .wrdev ∧ base.rsvSync = false) ∧
    ∃ t, step (withNext [.command 0x5000]) = .next t := ⟨by decide, by decide, by decide, by decide, _, rfl⟩

theorem witness_UnacceptedCommandHasNoEffect :
    faultedBase.fault ≠ .none ∧ (base.fault = .none ∧ (some Pending.rddevRead) ≠ none) ∧
    (base.idle ∧ (Instr.setw 11 0).wellFormed base.cfg = false) := by decide

theorem witness_FaultEntryIsPrecise :
    ∃ t, step (withNext [.command 0x0000]) = .next t ∧ (withNext [.command 0x0000]).fault = .none ∧ t.fault ≠ .none :=
  ⟨_, rfl, by decide, by decide⟩

theorem witness_OnlyResetLeavesFaultedState :
    (∃ t, (faultedBase.withEvents [.reset 0x22]).fault ≠ .none ∧ step (faultedBase.withEvents [.reset 0x22]) = .next t) ∧
    (∃ t, (faultedBase.withEvents [.command 0x1000]).fault ≠ .none ∧
      step (faultedBase.withEvents [.command 0x1000]) = .next t) :=
  ⟨⟨_, by decide, rfl⟩, ⟨_, by decide, rfl⟩⟩

theorem witness_ExtractStaysWithinField :
    (f1.set 0 0x99)[Config.default.table.rt.frm.byteIndex] = f1[Config.default.table.rt.frm.byteIndex] := by decide

theorem witness_MergeWritesOneField :
    Config.default.table.wt.addr.isRun ∧ (0 : Fin 4) ≠ Config.default.table.wt.addr.byteIndex := by decide

theorem witness_FieldLaws :
    Config.default.table.wt.addr.isRun ∧ Config.default.table.wt.addr.disjoint Config.default.table.wt.parity ∧
    Config.default.wf ∧ (1 : BitVec 4) ≠ 3 ∧
    Config.default.table.rt.lookup 1 = some Config.default.table.rt.bxL ∧
    Config.default.table.rt.lookup 3 = some Config.default.table.rt.byL ∧
    Config.default.table.wt.lookup 1 = some Config.default.table.wt.addr ∧
    Config.default.table.wt.lookup 3 = some Config.default.table.wt.fast := by decide

theorem witness_SetwMergesNamedField :
    base.idle ∧ base.cfg.table.wt.lookup 10 = some ⟨3, 0x1F, 0⟩ ∧ base.cfg.table.wt.lookup 7 = some ⟨3, 0x20, 5⟩ := by
  decide

theorem witness_GetrReturnsNamedField : base.idle ∧ base.cfg.table.rt.lookup 13 = some ⟨9, 0x1F, 0⟩ := by decide

theorem witness_SetwLeavesOtherFieldsAlone :
    base.cfg.wf ∧ base.idle ∧ base.cfg.table.wt.lookup 1 = some base.cfg.table.wt.addr ∧
    base.cfg.table.wt.lookup 0 = some base.cfg.table.wt.parity ∧ (0 : BitVec 4) ≠ 1 ∧
    ∃ t, exec (.setw 1 3) base = .next t :=
  ⟨by decide, by decide, by decide, by decide, by decide, _, rfl⟩

theorem witness_FieldCommandsFrame :
    (∃ t, exec (.getr 8) base = .next t) ∧ (∃ t, exec (.setw 3 1) base = .next t) ∧ base.idle ∧
    (base.cfg.table.rt.lookup 8).isSome ∧ (base.cfg.table.wt.lookup 3).isSome ∧ isReservedWriteId 3 = false :=
  ⟨⟨_, rfl⟩, ⟨_, rfl⟩, by decide, by decide, by decide, by decide⟩

theorem witness_GetrOfZeroFrameReturnsZero :
    base.idle ∧ (base.cfg.table.rt.lookup 0).isSome ∧ base.rf = Vector.replicate 10 0 := by decide

theorem witness_BusCommandsIssueFrame :
    (∃ t, exec .init base = .next t) ∧ (∃ t, exec .wrdev base = .next t) ∧ (∃ t, exec .getmag faultedBase = .next t) :=
  ⟨⟨_, rfl⟩, ⟨_, rfl⟩, ⟨_, rfl⟩⟩

/-- A waiting machine meets `answerNext`: the premise of every completion statement, for every pending transfer and
every answer. -/
theorem witness_answerNext (p : Pending) (a : BusAnswer) (wf : WriteFrame) :
    (waiting p a wf).answerNext p a [] :=
  ⟨rfl, rfl, 0, rfl, rfl⟩

theorem witness_InitReadsEchoesConfiguresWrites :
    base.idle ∧ (waiting .initRead (.readOk f2) base.wf).answerNext .initRead (.readOk f2) [] ∧
    (waiting (.initWrite base.wf) .writeOk base.wf).answerNext (.initWrite base.wf) .writeOk [] ∧
    (Pending.initWrite base.wf).cmd = .init ∧
    (waiting (.initWrite base.wf) .err base.wf).answerNext (.initWrite base.wf) .err [] :=
  ⟨by decide, witness_answerNext _ _ _, witness_answerNext _ _ _, rfl, witness_answerNext _ _ _⟩

theorem witness_InitWriteFramePostcondition :
    (waiting .initRead (.readOk f2) base.wf).cfg.wf ∧
    (waiting .initRead (.readOk f2) base.wf).answerNext .initRead (.readOk f2) [] ∧
    (∃ t, step (waiting .initRead (.readOk f2) base.wf) = .next t) ∧ (2 : BitVec 4) ∉ [0, 1, 3, 4, 8, 9, 10] ∧
    base.cfg.table.wt.lookup 2 = some ⟨1, 0x04, 2⟩ :=
  ⟨by decide, witness_answerNext _ _ _, ⟨_, rfl⟩, by decide, by decide⟩

theorem witness_ResyncEchoesReservedFields :
    base.idle ∧ (waiting .resyncRead (.readOk f2) base.wf).answerNext .resyncRead (.readOk f2) [] ∧
    (waiting .resyncRead .err base.wf).answerNext .resyncRead .err [] :=
  ⟨by decide, witness_answerNext _ _ _, witness_answerNext _ _ _⟩

theorem witness_EchoCopiesReservedFieldsExactly :
    base.cfg.wf ∧ isReservedWriteId 7 = false ∧ base.cfg.table.wt.lookup 7 = some ⟨3, 0x20, 5⟩ ∧
    List.Perm
      [(base.cfg.table.wt.res3, extract base.rf base.cfg.table.rt.res3),
       (base.cfg.table.wt.res1, extract base.rf base.cfg.table.rt.res1),
       (base.cfg.table.wt.res2, extract base.rf base.cfg.table.rt.res2)]
      [(base.cfg.table.wt.res1, extract base.rf base.cfg.table.rt.res1),
       (base.cfg.table.wt.res2, extract base.rf base.cfg.table.rt.res2),
       (base.cfg.table.wt.res3, extract base.rf base.cfg.table.rt.res3)] := by decide

theorem witness_RddevReplacesReadFrame :
    base.idle ∧ (waiting .rddevRead (.readOk f1) base.wf).answerNext .rddevRead (.readOk f1) [] ∧
    (waiting .rddevRead .err base.wf).answerNext .rddevRead .err [] :=
  ⟨by decide, witness_answerNext _ _ _, witness_answerNext _ _ _⟩

theorem witness_WrdevSendsWriteFrameWhenSynced :
    ((setSync base).idle ∧ (setSync base).rsvSync = true) ∧ (base.idle ∧ base.rsvSync = false) ∧
    (waiting (.wrdevWrite base.wf) .writeOk base.wf).answerNext (.wrdevWrite base.wf) .writeOk [] ∧
    (waiting (.wrdevWrite base.wf) .err base.wf).answerNext (.wrdevWrite base.wf) .err [] :=
  ⟨by decide, by decide, witness_answerNext _ _ _, witness_answerNext _ _ _⟩

/-- V2.7: INIT, read `Ok(F2)`, write `Err`: two answers in a row. -/
def initFails : State :=
  { waiting .initRead (.readOk f2) base.wf with events := [.answer 0 (.readOk f2), .answer 1 .err] }

theorem witness_BusErrorEffects :
    (waiting .getmagRead .err base.wf).answerNext .getmagRead .err [] ∧
    initFails.fault = .none ∧ initFails.pend = some .initRead ∧ 0 + 1 = initFails.requests.length ∧
    initFails.events = .answer 0 (.readOk f2) :: .answer (0 + 1) .err :: [] ∧
    ∃ t : State, Host.Core.run core 2 initFails = .next t :=
  ⟨witness_answerNext _ _ _, by decide, by decide, by decide, by decide, _, rfl⟩

theorem witness_ReconstructReadsTwelveBits : (0x0F : Byte).toNat ≤ 0x0F ∧ (0x00 : Byte).toNat ≤ 0x0F := by decide

theorem witness_ReconstructIsBijection :
    (0x0F : Byte).toNat ≤ 0x0F ∧ (-2048 : Int) ≤ -2048 ∧ (-2048 : Int) ≤ 2047 ∧ (-2048 : Int) ≤ 2047 ∧
    (2047 : Int) ≤ 2047 := by decide

theorem witness_RoundingIsNearestTiesToEven :
    0 < 3 ∧ |mkRat 0 3| ≤ (Fmt.binary32.pattern false (Fmt.binary32.infMag - 1)).value ∧
    (FmtVal.b32 0x3F800000).fmt = .binary32 ∧ (FmtVal.b32 0x3F800000).isFinite = true := by
  refine ⟨by decide, ?_, rfl, by decide⟩
  have h : (0 : Rat) ≤ mkRat (FmtVal.num (Fmt.binary32.pattern false (Fmt.binary32.infMag - 1)))
      (FmtVal.den (Fmt.binary32.pattern false (Fmt.binary32.infMag - 1))) := Rat.mkRat_nonneg (by decide) _
  simpa [FmtVal.value] using h

/-- The bound is met by the largest finite value itself, in both formats, positive and negative. -/
theorem witness_RoundingIsNearestTiesToEven_largest (f : Fmt) (n : Int)
    (h : n = (f.pattern false (f.infMag - 1)).num ∨ n = -(f.pattern false (f.infMag - 1)).num) :
    0 < (f.pattern false (f.infMag - 1)).den ∧
    |mkRat n (f.pattern false (f.infMag - 1)).den| ≤ (f.pattern false (f.infMag - 1)).value := by
  have hn : 0 ≤ (f.pattern false (f.infMag - 1)).num := by cases f <;> decide +kernel
  have hv : 0 ≤ (f.pattern false (f.infMag - 1)).value := Rat.mkRat_nonneg hn _
  refine ⟨by cases f <;> decide +kernel, ?_⟩
  rcases h with rfl | rfl
  · exact (abs_of_nonneg hv).le
  · rw [← Rat.neg_mkRat, abs_neg]; exact (abs_of_nonneg hv).le

theorem witness_ScaleRoundsExactProduct :
    (-2048 : Int) ≤ (0xF800 : BitVec 16).toInt ∧ (0xF800 : BitVec 16).toInt ≤ 2047 ∧
    (FmtVal.b64 0).fmt = .binary64 ∧ (FmtVal.b64 0).isFinite = true := by decide

theorem witness_ScaleSatisfiesPScale :
    (0x07FF : BitVec 16) ≠ 0 ∧ (-2047 : Int) ≤ (0x07FF : BitVec 16).toInt ∧ (0x07FF : BitVec 16).toInt ≤ 2047 ∧
    (0xF800 : BitVec 16) ≠ 0 ∧ (-2048 : Int) ≤ (0xF800 : BitVec 16).toInt := by decide

theorem witness_ScaleResultsAreZeroOrNormal :
    (-2048 : Int) ≤ (0 : BitVec 16).toInt ∧ (0 : BitVec 16).toInt ≤ 2047 ∧ (1 : BitVec 16) ≠ 0 ∧
    (-2048 : Int) ≤ (1 : BitVec 16).toInt ∧ (1 : BitVec 16).toInt ≤ 2047 := by decide

theorem witness_GetmagConvertsFrameJustRead :
    ((setReady base).idle ∧ (setReady base).phase = .ready) ∧ (base.idle ∧ base.phase = .uninit) ∧
    (waiting .getmagRead (.readOk f1) base.wf).answerNext .getmagRead (.readOk f1) [] ∧
    (waiting .getmagRead .err base.wf).answerNext .getmagRead .err [] :=
  ⟨by decide, by decide, witness_answerNext _ _ _, witness_answerNext _ _ _⟩

/-- F1 with its temperature, frame-counter, channel and power-down fields changed. -/
def f1Other : ReadFrame := #v[0x12, 0x34, 0x56, 0xFF, 0x9A, 0x0C, 0x77, 0, 0, 0]

theorem witness_ReadingDependsOnlyOnAxisFields :
    (waiting .getmagRead (.readOk f1) base.wf).cfg = (waiting .getmagRead (.readOk f1Other) base.wf).cfg ∧
    (waiting .getmagRead (.readOk f1) base.wf).answerNext .getmagRead (.readOk f1) [] ∧
    (waiting .getmagRead (.readOk f1Other) base.wf).answerNext .getmagRead (.readOk f1Other) [] ∧
    (∀ spec ∈ [base.cfg.table.rt.bxH, base.cfg.table.rt.bxL, base.cfg.table.rt.byH, base.cfg.table.rt.byL,
      base.cfg.table.rt.bzH, base.cfg.table.rt.bzL], extract f1 spec = extract f1Other spec) ∧
    (∃ t, step (waiting .getmagRead (.readOk f1) base.wf) = .next t) ∧
    (∃ t, step (waiting .getmagRead (.readOk f1Other) base.wf) = .next t) :=
  ⟨rfl, witness_answerNext _ _ _, witness_answerNext _ _ _, by decide, ⟨_, rfl⟩, ⟨_, rfl⟩⟩

theorem witness_ReadingsOfUniformFrames : Config.default.wf := by decide

theorem witness_ResetRestoresEveryItem :
    (faultedBase.withEvents [.reset 0x22]).events = .reset 0x22 :: [] ∧
    (faultedBase.withEvents [.reset 0x22, .answer 0 .err]).events = .reset 0x22 :: .answer 0 .err :: [] := by decide

/-- V2.9: RDDEV pending, reset, RDDEV issued again, then the answer to the abandoned read. -/
def abandoned : State :=
  { waiting .rddevRead .err base.wf with events := [.reset 0x22, .command 0x5000, .answer 0 (.readOk f1)] }

theorem witness_AbandonedAnswersAreDropped :
    (withNext [.answer 0 (.readOk f1)]).pend = none ∧
    abandoned.pend = some .rddevRead ∧ 0 + 1 = abandoned.requests.length ∧
    abandoned.events = .reset 0x22 :: .command 0x5000 :: .answer 0 (.readOk f1) :: [] ∧
    ∃ t : State, Host.Core.run core 3 abandoned = .next t :=
  ⟨by decide, by decide, by decide, by decide, _, rfl⟩

/-- The statements over every step have one premise, a step that answers; here are steps of each kind. -/
theorem witness_steps :
    (∃ t, step base = .next t) ∧ (∃ t, step (withNext [.command 0x3103]) = .next t) ∧
    (∃ t, step (withNext [.reset 0x22]) = .next t) ∧
    (∃ t, step (waiting .initRead (.readOk f2) base.wf) = .next t) ∧
    (∃ t, step (waiting (.initWrite base.wf) .writeOk base.wf) = .next t) :=
  ⟨⟨_, rfl⟩, ⟨_, rfl⟩, ⟨_, rfl⟩, ⟨_, rfl⟩, ⟨_, rfl⟩⟩

theorem witness_ReadFrameWrittenOnlyByReads :
    ∃ t, step (waiting .rddevRead (.readOk f1) base.wf) = .next t ∧ t.rf = f1 := ⟨_, rfl, by decide⟩

theorem witness_WriteFrameWrittenOnlyByMerges :
    ∃ t, step (withNext [.command 0x3103]) = .next t ∧ t.wf = #v[0, 0x60, 0, 0] := ⟨_, rfl, by decide⟩

theorem witness_PhaseReadyOnlyByInit :
    (∃ t, step (waiting (.initWrite base.wf) .writeOk base.wf) = .next t ∧
      (waiting (.initWrite base.wf) .writeOk base.wf).phase = .uninit ∧ t.phase = .ready) ∧
    (∃ t, step (setReady (withNext [.reset 0x22])) = .next t ∧ (setReady (withNext [.reset 0x22])).phase = .ready ∧
      t.phase = .uninit) :=
  ⟨⟨_, rfl, by decide, by decide⟩, ⟨_, rfl, by decide, by decide⟩⟩

theorem witness_SyncFlagWriters :
    (∃ t, step (clearSync (waiting .resyncRead (.readOk f2) base.wf)) = .next t ∧ t.rsvSync = true) ∧
    (∃ t, step (setSync (withNext [.command 0x3805])) = .next t ∧ (setSync (withNext [.command 0x3805])).rsvSync = true ∧
      t.rsvSync = false) :=
  ⟨⟨_, rfl, by decide⟩, ⟨_, rfl, by decide, by decide⟩⟩

theorem witness_ConfigurationLfcAndAddrFixed :
    ∃ t, step (withNext [.reset 0x22]) = .next t ∧ t.addr = 0x22 := ⟨_, rfl, by decide⟩

theorem witness_OneRequestAtATime :
    ∃ t, step (waiting .initRead (.readOk f2) base.wf) = .next t ∧ t.requests.length = 2 := ⟨_, rfl, by decide⟩

theorem witness_BusWriteSnapshotAndCompletion :
    (∃ t, step (setSync (withNext [.command 0x6000])) = .next t ∧
      t.requests = (setSync (withNext [.command 0x6000])).requests ++ [.write 0x5E #v[0, 0, 0, 0]]) ∧
    (Pending.wrdevWrite base.wf).kind = .write ∧
    (waiting (.wrdevWrite base.wf) .writeOk base.wf).answerNext (.wrdevWrite base.wf) .writeOk [] ∧
    (waiting (.wrdevWrite base.wf) .err base.wf).answerNext (.wrdevWrite base.wf) .err [] ∧
    (∃ t, step ((waiting (.wrdevWrite base.wf) .err base.wf).withEvents [.command 0x3103]) = .next t ∧
      t.pend = some (.wrdevWrite base.wf) ∧ (Pending.wrdevWrite base.wf).wsnap = some base.wf) :=
  ⟨⟨_, rfl, by decide⟩, rfl, witness_answerNext _ _ _, witness_answerNext _ _ _, ⟨_, rfl, by decide, rfl⟩⟩

theorem witness_CommandsCompleteExactlyOnce :
    (∀ e ∈ (withNext [.command 0x4000, .command 0x5000]).events, e.isReset = false) ∧
    ∃ t : State, Host.Core.run core 2 (withNext [.command 0x4000, .command 0x5000]) = .next t ∧ t.fault = .none :=
  ⟨by decide, _, rfl, by decide⟩

theorem witness_ResponsesAreWellFormed :
    (∃ t, step (withNext [.command 0x4000]) = .next t ∧ t.responses = [⟨.ok, .byte 0⟩]) ∧
    (∃ t, step (withNext [.command 0x7000]) = .next t ∧ t.fault ≠ .none) :=
  ⟨⟨_, rfl, by decide⟩, ⟨_, rfl, by decide⟩⟩

theorem witness_WriteFrameIsNeverReadBack :
    ∃ t, step (setSync (withNext [.command 0x6000])) = .next t ∧ t.pend.isSome := ⟨_, rfl, by decide⟩

theorem witness_StepKeepsInvariant :
    (base.withFetchWord 16 0x1000).Inv ∧ ∃ t, step (base.withFetchWord 16 0x1000) = .next t := by
  refine ⟨⟨by decide, by decide, by decide, by decide, ?_, ?_, ?_, ?_⟩, _, rfl⟩ <;>
    simp [State.withFetchWord, base, State.reset]

/-- A machine whose read is never answered, with a command still to come (P5 without the answer). -/
def unanswered : State := { waiting .rddevRead .err base.wf with events := [.command 0x4000] }

theorem witness_UnansweredTransferStaysPending :
    unanswered.stuck ∧ ∃ t : State, Host.Core.run core 3 unanswered = .next t := by
  refine ⟨⟨by decide, by decide, ?_⟩, _, rfl⟩
  intro e he
  have h : e = .command 0x4000 := by simpa [unanswered] using he
  subst h
  exact ⟨rfl, fun _ _ h => by simp at h⟩

theorem witness_EveryWriteFollowsResync :
    (∃ t, step (setSync (withNext [.command 0x6000])) = .next t ∧
      t.requests = (setSync (withNext [.command 0x6000])).requests ++ [.write base.addr #v[0, 0, 0, 0]]) ∧
    (Pending.initWrite base.wf).kind = .write ∧
    (∃ t : State, ({ waiting (.initWrite base.wf) .writeOk base.wf with
        events := [.answer 0 .writeOk, .command 0x6000] } : State).answerNext (.initWrite base.wf) .writeOk
          (.command 0x6000 :: []) ∧
      Host.Core.run core 2 { waiting (.initWrite base.wf) .writeOk base.wf with
        events := [.answer 0 .writeOk, .command 0x6000] } = .next t) :=
  ⟨⟨_, rfl, by decide⟩, rfl, ⟨_, ⟨rfl, rfl, 0, rfl, rfl⟩, rfl⟩⟩

/-- One GETR, answered: the run ends normally. An RDDEV abandoned by a reset, and an illegal word before one: not. -/
theorem witness_NormalEndNeedsEveryResponse :
    (∃ t : State, (∀ e ∈ (withNext [.command 0x4000]).events, e.isReset = false) ∧
      Host.Core.run core 1 (withNext [.command 0x4000]) = .next t ∧ t.fault = .none ∧ t.pend = none ∧
      t.events.countP Event.isCommand = 0) ∧
    (∃ u t : State, Host.Core.run core 1 (withNext [.command 0x5000, .reset 0x22]) = .next u ∧
      Host.Core.run core 1 u = .next t ∧ u.pend.isSome ∧ u.events = .reset 0x22 :: [] ∧
      t.fault = .none ∧ t.pend = none) ∧
    (∃ u t : State, Host.Core.run core 1 (withNext [.command 0x0000, .reset 0x22]) = .next u ∧
      Host.Core.run core 1 u = .next t ∧ (withNext [.command 0x0000, .reset 0x22]).fault = .none ∧ u.fault ≠ .none ∧
      t.fault = .none ∧ t.pend = none) :=
  ⟨⟨_, by decide, rfl, by decide, by decide, by decide⟩,
    ⟨_, _, rfl, rfl, by decide, by decide, by decide, by decide⟩,
    ⟨_, _, rfl, rfl, by decide, by decide, by decide, by decide⟩⟩

theorem witness_TableBuilderRefusesFailingTables :
    MaskTable.build rawRt rawWt = .ok MaskTable.default ∧
    (rawRt.set 8 (some ⟨3, 0x0C, 8⟩))[(8 : Fin 16)] = some ⟨3, 0x0C, 8⟩ ∧ 8 ≤ (⟨3, 0x0C, 8⟩ : RawSpec).shift ∧
    (rawWt.set 0 (some ⟨4, 0x80, 7⟩))[(0 : Fin 16)] = some ⟨4, 0x80, 7⟩ ∧ 4 ≤ (⟨4, 0x80, 7⟩ : RawSpec).byteIndex ∧
    (rawRt.set 13 none)[13] = none ∧ (rawWt.set 10 none)[10] = none := by decide

end Sys2Proof.Tests
end

section
/-! Rounding to a binary format (R9, R122), up to O33. The patterns of one sign, read as numbers, are ordered as the values
they stand for; the significand `roundMag` finds is the nearest whole number of units in the last place; and every value of
the format that is not a whole number of those units lies below the binade of the rational. -/

namespace Sys2Proof

/-! ### The value of a pattern -/

/-- The weight of the hidden bit, in units in the last place. -/
def Fmt.hidden (f : Fmt) : Nat := 2 ^ (f.precision - 1)

/-- The magnitude a finite pattern's magnitude bits stand for. -/
def Fmt.magVal (f : Fmt) (mag : Nat) : ℚ := ((f.magFrac mag).1 : ℚ) / (f.magFrac mag).2

/-- The weight of one unit in the last place, `j` binades above the subnormals. -/
def Fmt.unit (f : Fmt) (j : Nat) : ℚ := 2 ^ (f.minExp + j)

theorem Fmt.hidden_pos (f : Fmt) : 0 < f.hidden := Nat.two_pow_pos _

theorem Fmt.hidden_mod_two (f : Fmt) : f.hidden % 2 = 0 := by cases f <;> rfl

theorem Fmt.unit_pos (f : Fmt) (j : Nat) : 0 < f.unit j := zpow_pos (by norm_num) _

theorem Fmt.unit_add (f : Fmt) (i j : Nat) : f.unit (i + j) = 2 ^ j * f.unit i := by
  rw [Fmt.unit, Fmt.unit, ← zpow_natCast, ← zpow_add₀ two_ne_zero]
  congr 1
  push_cast
  ring

theorem scaleTwo_ratio (m : Nat) (e : Int) : ((scaleTwo m e).1 : ℚ) / (scaleTwo m e).2 = m * 2 ^ e := by
  unfold scaleTwo
  split
  case isTrue he =>
    obtain ⟨k, rfl⟩ := Int.eq_ofNat_of_zero_le he
    simp
  case isFalse he =>
    obtain ⟨k, hk⟩ := Int.eq_ofNat_of_zero_le (by omega : 0 ≤ -e)
    obtain rfl : e = -k := by omega
    simp [div_eq_mul_inv]

theorem Fmt.magVal_subnormal (f : Fmt) {m : Nat} (hm : m < f.hidden) : f.magVal m = m * f.unit 0 := by
  have hfrac : f.magFrac m = scaleTwo m f.minExp := if_pos hm
  rw [Fmt.magVal, hfrac, scaleTwo_ratio]
  simp [Fmt.unit]

theorem Fmt.magVal_normal (f : Fmt) (j : Nat) {t : Nat} (ht : t < f.hidden) :
    f.magVal ((j + 1) * f.hidden + t) = (f.hidden + t : Nat) * f.unit j := by
  have hge : ¬ (j + 1) * f.hidden + t < f.hidden := by rw [Nat.add_mul]; omega
  have hmod : ((j + 1) * f.hidden + t) % f.hidden = t := by
    rw [Nat.mul_add_mod_self_right, Nat.mod_eq_of_lt ht]
  have hdiv : ((j + 1) * f.hidden + t) / f.hidden = j + 1 := by
    rw [Nat.mul_comm, Nat.mul_add_div f.hidden_pos, Nat.div_eq_of_lt ht, Nat.add_zero]
  have hfrac : f.magFrac ((j + 1) * f.hidden + t) = scaleTwo (((j + 1) * f.hidden + t) % f.hidden + f.hidden)
      (f.minExp + (((j + 1) * f.hidden + t) / f.hidden - 1 : Nat)) := if_neg hge
  rw [Fmt.magVal, hfrac, scaleTwo_ratio, hmod, hdiv, Nat.add_comm t, Nat.add_sub_cancel, Fmt.unit]

/-- A significand `m` that is normal for its binade `j`, a carry out of it included, is worth `m` units of that binade. -/
theorem Fmt.magVal_binade (f : Fmt) {j m : Nat} (hm : m ≤ 2 * f.hidden) (hj : j = 0 ∨ f.hidden ≤ m) :
    f.magVal (j * f.hidden + m) = m * f.unit j := by
  rcases Nat.lt_or_ge m f.hidden with hlt | hge
  · obtain rfl : j = 0 := by omega
    rw [Nat.zero_mul, Nat.zero_add, f.magVal_subnormal hlt]
  obtain ⟨t, rfl⟩ := Nat.exists_eq_add_of_le hge
  rcases Nat.lt_or_ge t f.hidden with ht | ht
  · rw [show j * f.hidden + (f.hidden + t) = (j + 1) * f.hidden + t by ring, f.magVal_normal j ht]
  · obtain rfl : t = f.hidden := by omega
    rw [show j * f.hidden + (f.hidden + f.hidden) = (j + 1 + 1) * f.hidden + 0 by ring,
      f.magVal_normal (j + 1) f.hidden_pos, f.unit_add]
    push_cast
    ring

theorem Fmt.exists_binade (f : Fmt) (a : Nat) :
    ∃ j m, a = j * f.hidden + m ∧ m < 2 * f.hidden ∧ (j = 0 ∨ f.hidden ≤ m) := by
  rcases Nat.lt_or_ge a f.hidden with hlt | hge
  · exact ⟨0, a, by omega, by omega, .inl rfl⟩
  · have hmod := Nat.mod_lt (a - f.hidden) f.hidden_pos
    have hdiv := Nat.div_add_mod' (a - f.hidden) f.hidden
    exact ⟨(a - f.hidden) / f.hidden, f.hidden + (a - f.hidden) % f.hidden, by omega, by omega, .inr (by omega)⟩

theorem Fmt.magVal_strictMono (f : Fmt) : StrictMono f.magVal := by
  refine strictMono_nat_of_lt_succ fun a => ?_
  obtain ⟨j, m, rfl, hm, hj⟩ := f.exists_binade a
  rw [Nat.add_assoc, f.magVal_binade hm.le hj, f.magVal_binade (by omega) (by omega)]
  exact mul_lt_mul_of_pos_right (by exact_mod_cast Nat.lt_succ_self m) (f.unit_pos j)

@[simp] theorem Fmt.magVal_zero (f : Fmt) : f.magVal 0 = 0 := by
  rw [f.magVal_subnormal f.hidden_pos, Nat.cast_zero, zero_mul]

theorem Fmt.magVal_nonneg (f : Fmt) (a : Nat) : 0 ≤ f.magVal a := by
  simpa using f.magVal_strictMono.monotone (Nat.zero_le a)

/-- Every value of the format is a whole number of units of binade `j`, or lies below that binade. -/
theorem Fmt.magVal_multiple_or_lt (f : Fmt) (a j : Nat) :
    (∃ k : ℤ, f.magVal a = k * f.unit j) ∨ (j ≠ 0 ∧ f.magVal a < f.hidden * f.unit j) := by
  obtain ⟨i, m, rfl, hm, hi⟩ := f.exists_binade a
  rw [f.magVal_binade hm.le hi]
  rcases Nat.lt_or_ge i j with hij | hij
  · refine .inr ⟨by omega, ?_⟩
    obtain ⟨c, rfl⟩ := Nat.exists_eq_add_of_le (Nat.succ_le_of_lt hij)
    have hm' : (m : ℚ) < 2 * f.hidden := by exact_mod_cast hm
    have hc : (1 : ℚ) ≤ 2 ^ c := one_le_pow₀ (by norm_num)
    calc (m : ℚ) * f.unit i < 2 * f.hidden * f.unit i := mul_lt_mul_of_pos_right hm' (f.unit_pos i)
      _ ≤ 2 ^ c * (2 * f.hidden * f.unit i) := le_mul_of_one_le_left (by have := f.unit_pos i; positivity) hc
      _ = f.hidden * f.unit (i.succ + c) := by rw [Nat.succ_add_eq_add_succ, f.unit_add, pow_succ]; ring
  · obtain ⟨c, rfl⟩ := Nat.exists_eq_add_of_le hij
    exact .inl ⟨m * 2 ^ c, by rw [f.unit_add]; push_cast; ring⟩

/-! ### Sign and magnitude -/

/-- The rational of magnitude `x` whose sign bit is `neg`. -/
def withSign (neg : Bool) (x : ℚ) : ℚ := if neg then -x else x

@[simp] theorem withSign_withSign (neg : Bool) (x : ℚ) : withSign neg (withSign neg x) = x := by
  cases neg <;> simp [withSign]

@[simp] theorem abs_withSign (neg : Bool) (x : ℚ) : |withSign neg x| = |x| := by
  cases neg <;> simp [withSign]

theorem withSign_injective (neg : Bool) : Function.Injective (withSign neg) :=
  Function.LeftInverse.injective (withSign_withSign neg)

theorem withSign_sub (neg : Bool) (x y : ℚ) : withSign neg (x - y) = withSign neg x - withSign neg y := by
  cases neg
  · rfl
  · exact neg_sub' x y

theorem eq_zero_of_withSign_eq {b c : Bool} {x : ℚ} (hbc : b ≠ c) (h : withSign b x = withSign c x) : x = 0 := by
  cases b <;> cases c <;> simp [withSign] at hbc h <;> linarith

theorem ofBool_append_msb (b : Bool) {w : Nat} (x : BitVec w) : (BitVec.ofBool b ++ x).msb = b := by
  simp [BitVec.msb_append]

theorem ofBool_append_toNat_mod (b : Bool) {w : Nat} (x : BitVec w) :
    (BitVec.ofBool b ++ x).toNat % 2 ^ w = x.toNat := by
  rw [BitVec.toNat_append, ← Nat.shiftLeft_add_eq_or_of_lt x.isLt, Nat.shiftLeft_eq, Nat.mul_add_mod_self_right,
    Nat.mod_eq_of_lt x.isLt]

theorem eq_ofBool_msb_append {w : Nat} (x : BitVec (1 + w)) :
    x = BitVec.ofBool x.msb ++ BitVec.ofNat w (x.toNat % 2 ^ w) := by
  apply BitVec.eq_of_toNat_eq
  have hx := x.isLt
  have hmod := Nat.mod_lt x.toNat (Nat.two_pow_pos w)
  rw [BitVec.toNat_append, BitVec.toNat_ofNat, Nat.mod_mod, ← Nat.shiftLeft_add_eq_or_of_lt hmod, Nat.shiftLeft_eq,
    BitVec.msb_eq_decide, Nat.add_sub_cancel_left]
  rw [Nat.pow_add] at hx
  by_cases h : 2 ^ w ≤ x.toNat
  · have hdiv : x.toNat / 2 ^ w = 1 := Nat.div_eq_of_lt_le (by omega) (by omega)
    simpa [h, hdiv] using (Nat.div_add_mod' x.toNat (2 ^ w)).symm
  · simp [h, Nat.mod_eq_of_lt (not_le.mp h)]

theorem Fmt.infMag_lt (f : Fmt) : f.infMag < 2 ^ (f.expBits + f.precision - 1) := by cases f <;> decide

theorem Fmt.infMag_sub_one_lt (f : Fmt) : f.infMag - 1 < f.infMag := by cases f <;> decide

@[simp] theorem Fmt.pattern_fmt (f : Fmt) (neg : Bool) (mag : Nat) : (f.pattern neg mag).fmt = f := by cases f <;> rfl

@[simp] theorem Fmt.pattern_sign (f : Fmt) (neg : Bool) (mag : Nat) : (f.pattern neg mag).sign = neg := by
  cases f <;> exact ofBool_append_msb neg _

theorem Fmt.pattern_mag (f : Fmt) (neg : Bool) {mag : Nat} (h : mag < f.infMag) : (f.pattern neg mag).mag = mag := by
  have hlt := h.trans f.infMag_lt
  cases f <;> exact (ofBool_append_toNat_mod neg _).trans (Nat.mod_eq_of_lt hlt)

theorem FmtVal.eq_pattern (v : FmtVal) : v = v.fmt.pattern v.sign v.mag := by
  cases v with
  | b32 b => exact congrArg FmtVal.b32 (eq_ofBool_msb_append (w := 31) b)
  | b64 b => exact congrArg FmtVal.b64 (eq_ofBool_msb_append (w := 63) b)

theorem FmtVal.value_eq (v : FmtVal) : v.value = withSign v.sign (v.fmt.magVal v.mag) := by
  rw [FmtVal.value, Rat.mkRat_eq_div, FmtVal.num, FmtVal.den, Fmt.magVal, withSign]
  split <;> push_cast <;> ring

theorem FmtVal.abs_value (v : FmtVal) : |v.value| = v.fmt.magVal v.mag := by
  rw [v.value_eq, abs_withSign, abs_of_nonneg (v.fmt.magVal_nonneg v.mag)]

theorem Fmt.pattern_value (f : Fmt) (neg : Bool) {mag : Nat} (h : mag < f.infMag) :
    (f.pattern neg mag).value = withSign neg (f.magVal mag) := by
  rw [FmtVal.value_eq, f.pattern_fmt, f.pattern_sign, f.pattern_mag neg h]

/-- Two patterns of one format with the same value differ at most in the sign of zero. -/
theorem FmtVal.eq_or_mag_eq_zero {u v : FmtVal} (hfmt : u.fmt = v.fmt) (hval : u.value = v.value) :
    u = v ∨ u.mag = 0 := by
  have hmag : u.mag = v.mag := by
    apply v.fmt.magVal_strictMono.injective
    rw [← v.abs_value, ← hval, u.abs_value, hfmt]
  by_cases hsign : u.sign = v.sign
  · exact .inl (by rw [u.eq_pattern, v.eq_pattern, hfmt, hsign, hmag])
  · refine .inr (v.fmt.magVal_strictMono.injective ?_)
    rw [u.value_eq, v.value_eq, hfmt, ← hmag] at hval
    rw [v.fmt.magVal_zero]
    exact eq_zero_of_withSign_eq hsign hval

/-! ### Rounding to a whole number -/

/-- `m` is a whole number nearest to `x`, and even where another is as near. -/
def IsRoundInt (m : ℤ) (x : ℚ) : Prop :=
  ∀ k : ℤ, |m - x| ≤ |k - x| ∧ (|m - x| = |k - x| → k ≠ m → m % 2 = 0)

theorem IsRoundInt.le_of_le {m b : ℤ} {x : ℚ} (h : IsRoundInt m x) (hx : x ≤ b) : m ≤ b := by
  by_contra hlt
  have hbm : (b : ℚ) < m := by exact_mod_cast not_le.mp hlt
  have hnear := (h b).1
  rw [abs_of_nonneg (by linarith), abs_of_nonneg (by linarith)] at hnear
  linarith

theorem IsRoundInt.le_of_ge {m b : ℤ} {x : ℚ} (h : IsRoundInt m x) (hx : b ≤ x) : b ≤ m := by
  by_contra hlt
  have hmb : (m : ℚ) < b := by exact_mod_cast not_le.mp hlt
  have hnear := (h b).1
  rw [abs_of_nonpos (by linarith), abs_of_nonpos (by linarith)] at hnear
  linarith

/-- `rneNat` compared with any whole `k`, over the common denominator: `k` is the quotient, the next number, or further
away by a whole `d`. -/
theorem rneNat_nearest_mul (n : Nat) {d : Nat} (hd : 0 < d) (k : ℤ) :
    |(rneNat n d : ℤ) * d - n| ≤ |k * d - n| ∧
      (|(rneNat n d : ℤ) * d - n| = |k * d - n| → k ≠ rneNat n d → (rneNat n d : ℤ) % 2 = 0) := by
  have hn : (d : ℤ) * (n / d : Nat) + (n % d : Nat) = n := by exact_mod_cast Nat.div_add_mod n d
  have hr := Nat.mod_lt n hd
  have hrne : 2 * (n % d) ≤ d ∧ rneNat n d = n / d ∨ d ≤ 2 * (n % d) ∧ rneNat n d = n / d + 1 := by
    unfold rneNat
    split_ifs <;> omega
  have heven : 2 * (n % d) = d → rneNat n d % 2 = 0 := by
    unfold rneNat
    split_ifs <;> omega
  generalize n / d = q at *
  generalize n % d = r at *
  obtain ⟨t, rfl⟩ : ∃ t, k = q + t := ⟨k - q, by ring⟩
  have hk : ((q : ℤ) + t) * d - n = t * d - r := by rw [← hn]; ring
  have ht : t ≤ -1 ∧ t * d ≤ -d ∨ t = 0 ∧ t * d = 0 ∨ t = 1 ∧ t * d = d ∨ 2 ≤ t ∧ 2 * d ≤ t * d := by
    rcases (by omega : t ≤ -1 ∨ t = 0 ∨ t = 1 ∨ 2 ≤ t) with h | rfl | rfl | h
    · exact .inl ⟨h, by nlinarith⟩
    · simp
    · simp
    · exact .inr (.inr (.inr ⟨h, by nlinarith⟩))
  have hm : (rneNat n d : ℤ) = q ∧ (rneNat n d : ℤ) * d - n = -r ∨
      (rneNat n d : ℤ) = q + 1 ∧ (rneNat n d : ℤ) * d - n = d - r := by
    rcases hrne with ⟨-, h⟩ | ⟨-, h⟩
    · exact .inl ⟨by omega, by rw [h, ← hn]; ring⟩
    · exact .inr ⟨by omega, by rw [h, ← hn]; push_cast; ring⟩
  rw [hk, Int.abs_eq_natAbs, Int.abs_eq_natAbs]
  generalize t * (d : ℤ) = td at *
  generalize (rneNat n d : ℤ) * d - n = md at *
  omega

theorem rneNat_isRoundInt (n : Nat) {d : Nat} (hd : 0 < d) : IsRoundInt (rneNat n d) (n / d) := by
  intro k
  have hd' : (0 : ℚ) < d := by exact_mod_cast hd
  have hdist (m : ℤ) : |(m : ℚ) - n / d| = ((|m * d - n| : ℤ) : ℚ) / d := by
    rw [eq_div_iff hd'.ne', ← abs_of_pos hd', ← abs_mul, abs_of_pos hd']
    push_cast
    congr 1
    field_simp
  obtain ⟨hle, htie⟩ := rneNat_nearest_mul n hd k
  rw [hdist, hdist]
  refine ⟨div_le_div_of_nonneg_right (by exact_mod_cast hle) hd'.le, fun heq => htie ?_⟩
  exact_mod_cast (div_left_inj' hd'.ne').mp heq

/-! ### The unit in the last place -/

theorem floorLog2_spec {n d : Nat} (hn : 0 < n) (hd : 0 < d) :
    (2 : ℚ) ^ floorLog2 n d ≤ n / d ∧ (n / d : ℚ) < 2 ^ (floorLog2 n d + 1) := by
  have hn' : (0 : ℚ) < n := by exact_mod_cast hn
  have hd' : (0 : ℚ) < d := by exact_mod_cast hd
  unfold floorLog2
  split
  case isTrue hdn =>
    have hq : n / d ≠ 0 := (Nat.div_pos hdn hd).ne'
    have hlo := (Nat.le_div_iff_mul_le hd).mp (Nat.log2_self_le hq)
    have hhi := (Nat.div_lt_iff_lt_mul hd).mp (Nat.lt_log2_self (n := n / d))
    generalize Nat.log2 (n / d) = L at *
    rw [le_div_iff₀ hd', div_lt_iff₀ hd']
    exact ⟨by exact_mod_cast hlo, by exact_mod_cast hhi⟩
  case isFalse hdn =>
    have hq : (d - 1) / n ≠ 0 := (Nat.div_pos (by omega) hn).ne'
    have hlo := (Nat.le_div_iff_mul_le hn).mp (Nat.log2_self_le hq)
    have hhi := (Nat.div_lt_iff_lt_mul hn).mp (Nat.lt_log2_self (n := (d - 1) / n))
    generalize Nat.log2 ((d - 1) / n) = L at *
    have hlo' : (2 : ℚ) ^ L * n < d := by exact_mod_cast (by omega : 2 ^ L * n < d)
    have hhi' : (d : ℚ) ≤ 2 ^ (L + 1) * n := by exact_mod_cast (by omega : d ≤ 2 ^ (L + 1) * n)
    rw [show -((L + 1 : Nat) : ℤ) + 1 = -(L : ℤ) by push_cast; ring, zpow_neg, zpow_neg, zpow_natCast, zpow_natCast,
      inv_le_comm₀ (by positivity) (by positivity), lt_inv_comm₀ (by positivity) (by positivity), inv_div,
      div_le_iff₀ hn', lt_div_iff₀ hn']
    exact ⟨hhi', hlo'⟩

/-- The binade, counted up from the subnormals, in which the positive rational `n / d` is rounded. -/
def Fmt.binade (f : Fmt) (n d : Nat) : Nat := (f.ulpExp n d - f.minExp).toNat

theorem Fmt.minExp_add_binade (f : Fmt) (n d : Nat) : f.minExp + f.binade n d = f.ulpExp n d := by
  unfold Fmt.binade Fmt.ulpExp
  omega

theorem Fmt.lt_binade_top (f : Fmt) {n d : Nat} (hn : 0 < n) (hd : 0 < d) :
    (n / d : ℚ) < 2 * f.hidden * f.unit (f.binade n d) := by
  refine (floorLog2_spec hn hd).2.trans_le ?_
  have htop : (2 : ℚ) * f.hidden * f.unit (f.binade n d) = 2 ^ (f.ulpExp n d + (f.precision - 1 : Nat) + 1) := by
    rw [Fmt.unit, f.minExp_add_binade, Fmt.hidden, zpow_add₀ two_ne_zero, zpow_add₀ two_ne_zero, zpow_natCast]
    push_cast
    ring
  rw [htop]
  exact zpow_le_zpow_right₀ (by norm_num) (by unfold Fmt.ulpExp; omega)

theorem Fmt.binade_bottom_le (f : Fmt) {n d : Nat} (hn : 0 < n) (hd : 0 < d) (hj : f.binade n d ≠ 0) :
    f.hidden * f.unit (f.binade n d) ≤ (n / d : ℚ) := by
  refine le_trans (le_of_eq ?_) (floorLog2_spec hn hd).1
  have hexp : floorLog2 n d = f.ulpExp n d + (f.precision - 1 : Nat) := by
    unfold Fmt.binade Fmt.ulpExp at *
    omega
  rw [Fmt.unit, f.minExp_add_binade, hexp, Fmt.hidden, zpow_add₀ two_ne_zero, zpow_natCast]
  push_cast
  ring

/-- `roundMag` finds a significand nearest to the rational in units of its binade. -/
theorem Fmt.exists_roundMag_significand (f : Fmt) (n : Nat) {d : Nat} (hd : 0 < d) :
    ∃ m : Nat, f.roundMag n d = min (f.binade n d * f.hidden + m) f.infMag ∧
      IsRoundInt m (n / d / f.unit (f.binade n d)) := by
  refine ⟨_, rfl, ?_⟩
  rw [Fmt.unit, f.minExp_add_binade]
  generalize f.ulpExp n d = e
  split
  case isTrue he =>
    obtain ⟨k, rfl⟩ := Int.eq_ofNat_of_zero_le he
    have hround := rneNat_isRoundInt n (d := d * 2 ^ k) (by positivity)
    rwa [Nat.cast_mul, Nat.cast_pow, Nat.cast_two, ← div_div, ← zpow_natCast] at hround
  case isFalse he =>
    obtain ⟨k, hk⟩ := Int.eq_ofNat_of_zero_le (by omega : 0 ≤ -e)
    obtain rfl : e = -k := by omega
    have hround := rneNat_isRoundInt (n * 2 ^ k) hd
    rw [neg_neg, zpow_neg, zpow_natCast, div_inv_eq_mul, div_mul_eq_mul_div]
    rwa [Nat.cast_mul, Nat.cast_pow, Nat.cast_two] at hround

/-! ### Rounding to the format -/

/-- No value of the format, of either sign, is nearer to `q` than the one of magnitude bits `mag`, which are even where
another is as near. -/
def Fmt.IsRoundMag (f : Fmt) (mag : Nat) (q : ℚ) : Prop :=
  ∀ (a : Nat) (w : ℚ), |w| = f.magVal a →
    |f.magVal mag - q| ≤ |w - q| ∧ (|f.magVal mag - q| = |w - q| → w ≠ f.magVal mag → mag % 2 = 0)

theorem Fmt.isRoundMag_zero (f : Fmt) : f.IsRoundMag 0 0 := fun _ _ _ => ⟨by simp, fun _ _ => rfl⟩

/-- The nearest whole number of units is nearest among all values: what is no whole number of units lies below the binade. -/
theorem Fmt.isRoundMag_of_significand (f : Fmt) {j m : Nat} {q : ℚ} (hm : m ≤ 2 * f.hidden) (hj : j = 0 ∨ f.hidden ≤ m)
    (hlow : j ≠ 0 → f.hidden * f.unit j ≤ q) (hround : IsRoundInt m (q / f.unit j)) :
    f.IsRoundMag (j * f.hidden + m) q := by
  intro a w hw
  have hu := f.unit_pos j
  have hdist (k : ℤ) : |k * f.unit j - q| = f.unit j * |k - q / f.unit j| := by
    rw [← abs_of_pos hu, ← abs_mul, abs_of_pos hu]
    congr 1
    field_simp
  have hval : f.magVal (j * f.hidden + m) = (m : ℤ) * f.unit j := f.magVal_binade hm hj
  rw [hval, hdist]
  rcases f.magVal_multiple_or_lt a j with ⟨k, hk⟩ | ⟨hj0, hlt⟩
  · obtain ⟨k', rfl⟩ : ∃ k' : ℤ, w = k' * f.unit j := by
      rcases abs_choice w with h | h
      · exact ⟨k, by rw [← hk, ← hw, h]⟩
      · exact ⟨-k, by rw [Int.cast_neg, neg_mul, ← hk, ← hw, h, neg_neg]⟩
    obtain ⟨hle, htie⟩ := hround k'
    rw [hdist]
    refine ⟨mul_le_mul_of_nonneg_left hle hu.le, fun heq hne => ?_⟩
    have heven := htie (mul_left_cancel₀ hu.ne' heq) (fun h => hne (by rw [h]))
    rw [Nat.add_mod, Nat.mul_mod, f.hidden_mod_two]
    omega
  · have hfar : f.unit j * |(m : ℤ) - q / f.unit j| < |w - q| := by
      have hwq : w < f.hidden * f.unit j := (le_abs_self w).trans_lt (hw ▸ hlt)
      calc f.unit j * |((m : ℤ) : ℚ) - q / f.unit j|
          ≤ f.unit j * |((f.hidden : ℤ) : ℚ) - q / f.unit j| := mul_le_mul_of_nonneg_left (hround f.hidden).1 hu.le
        _ = q - f.hidden * f.unit j := by
          rw [← hdist, Int.cast_natCast, abs_sub_comm, abs_of_nonneg (sub_nonneg.mpr (hlow hj0))]
        _ < q - w := by linarith
        _ ≤ |w - q| := by rw [abs_sub_comm]; exact le_abs_self _
    exact ⟨hfar.le, fun heq => absurd heq hfar.ne⟩

theorem Fmt.IsRoundMag.lt_infMag {f : Fmt} {mag : Nat} {q : ℚ} (h : f.IsRoundMag mag q)
    (hq : q ≤ f.magVal (f.infMag - 1)) : mag < f.infMag := by
  have hmax := f.infMag_sub_one_lt
  by_contra hge
  have hlt : f.magVal (f.infMag - 1) < f.magVal mag := f.magVal_strictMono (by omega)
  have hnear := (h (f.infMag - 1) _ (abs_of_nonneg (f.magVal_nonneg _))).1
  rw [abs_of_nonneg (by linarith), abs_of_nonneg (by linarith)] at hnear
  linarith

theorem Fmt.roundMag_isRoundMag (f : Fmt) {n d : Nat} (hn : 0 < n) (hd : 0 < d)
    (hq : (n / d : ℚ) ≤ f.magVal (f.infMag - 1)) :
    f.roundMag n d < f.infMag ∧ f.IsRoundMag (f.roundMag n d) (n / d) := by
  obtain ⟨m, hmag, hround⟩ := f.exists_roundMag_significand n hd
  have hu := f.unit_pos (f.binade n d)
  have hm : m ≤ 2 * f.hidden := by
    have hx : (n / d / f.unit (f.binade n d) : ℚ) ≤ ((2 * f.hidden : Nat) : ℤ) := by
      rw [div_le_iff₀ hu]
      exact_mod_cast (f.lt_binade_top hn hd).le
    exact_mod_cast hround.le_of_le hx
  have hj : f.binade n d = 0 ∨ f.hidden ≤ m := by
    refine or_iff_not_imp_left.mpr fun h0 => ?_
    have hx : ((f.hidden : ℤ) : ℚ) ≤ n / d / f.unit (f.binade n d) := by
      rw [le_div_iff₀ hu]
      exact_mod_cast f.binade_bottom_le hn hd h0
    exact_mod_cast hround.le_of_ge hx
  have hnear := f.isRoundMag_of_significand hm hj (f.binade_bottom_le hn hd) hround
  have hlt := hnear.lt_infMag hq
  rw [hmag, min_eq_left hlt.le]
  exact ⟨hlt, hnear⟩

/-- `RNE_FMT` answers the rational's sign with the magnitude rounded; at zero that is +0. -/
theorem rne_eq_pattern (f : Fmt) (n : Int) {d : Nat} (hd : 0 < d)
    (hq : (n.natAbs / d : ℚ) ≤ f.magVal (f.infMag - 1)) :
    ∃ mag, mag < f.infMag ∧ rne f n d = f.pattern (decide (n < 0)) mag ∧ f.IsRoundMag mag (n.natAbs / d) := by
  rcases eq_or_ne n 0 with rfl | hn
  · exact ⟨0, by cases f <;> decide, rfl, by simpa using f.isRoundMag_zero⟩
  · obtain ⟨hlt, hnear⟩ := f.roundMag_isRoundMag (Int.natAbs_pos.mpr hn) hd hq
    exact ⟨_, hlt, if_neg hn, hnear⟩

theorem mkRat_eq_withSign (n : Int) (d : Nat) : mkRat n d = withSign (decide (n < 0)) (n.natAbs / d) := by
  rw [Rat.mkRat_eq_div, withSign]
  by_cases hn : n < 0
  · simp [hn, Nat.cast_natAbs, abs_of_neg hn, neg_div]
  · simp [hn, Nat.cast_natAbs, abs_of_nonneg (not_lt.mp hn)]

theorem abs_mkRat (n : Int) (d : Nat) : |mkRat n d| = (n.natAbs / d : ℚ) := by
  rw [mkRat_eq_withSign, abs_withSign, abs_of_nonneg (by positivity)]

/-- Settles O33: turned to the sign of the rational, every value keeps its magnitude and its distance, and among all values
the magnitude `roundMag` finds is the nearest to the rational's. -/
theorem roundingIsNearestTiesToEven : Obligations.RoundingIsNearestTiesToEven := by
  intro f n d hd hq
  rw [abs_mkRat, f.pattern_value false f.infMag_sub_one_lt] at hq
  obtain ⟨mag, hlt, hrne, hnear⟩ := rne_eq_pattern f n hd hq
  have hfmt : (rne f n d).fmt = f := by rw [hrne, f.pattern_fmt]
  have hmag : (rne f n d).mag = mag := by rw [hrne, f.pattern_mag _ hlt]
  have hval : withSign (decide (n < 0)) (rne f n d).value = f.magVal mag := by
    rw [hrne, f.pattern_value _ hlt, withSign_withSign]
  have hdist (x : ℚ) : |x - mkRat n d| = |withSign (decide (n < 0)) x - n.natAbs / d| := by
    rw [← abs_withSign (decide (n < 0)), withSign_sub, mkRat_eq_withSign, withSign_withSign]
  refine ⟨hfmt, by simpa [FmtVal.isFinite, hmag, hfmt] using hlt, fun v hv _ => ?_⟩
  obtain ⟨hle, htie⟩ := hnear v.mag (withSign (decide (n < 0)) v.value) (by rw [abs_withSign, v.abs_value, hv])
  rw [hdist, hdist, hval]
  refine ⟨hle, fun heq hne => ?_⟩
  by_cases hsame : (rne f n d).value = v.value
  · rw [(FmtVal.eq_or_mag_eq_zero (hfmt.trans hv.symm) hsame).resolve_left hne.symm]
  · rw [hmag]
    exact htie heq fun h => hsame (withSign_injective _ (hval.trans h.symm))

end Sys2Proof
end

section
/-! What each command, each bus answer and each step does to one item of the state at a time (R21 to R35), read off the
effects of Laws/Steps.lean; O43 to O47 are assembled from these. -/

namespace Sys2Proof.Machine

variable {s t : State} {i : Instr} {n : Nat} {a : BusAnswer}

/-! ### What commands and answers leave alone -/

/-- R86, R87, R143 and the issue parts: a command writes none of `RF`, `PHASE`, `LFC`, `ADDR`, the configuration and the
events to come. -/
theorem CommandEffect.frame (h : CommandEffect s i t) :
    t.rf = s.rf ∧ t.phase = s.phase ∧ t.lfc = s.lfc ∧ t.addr = s.addr ∧ t.cfg = s.cfg ∧ t.events = s.events := by
  cases h with
  | setw => simp [clearSyncIfReserved_eq]
  | _ => exact ⟨rfl, rfl, rfl, rfl, rfl, rfl⟩

/-- R45, R46, R145 and the completion parts: a bus answer raises no fault and writes none of `FAULT`, `LFC`, `ADDR`, the
configuration and the events to come. -/
theorem AnswerEffect.frame (h : AnswerEffect s n a t) :
    t.fault = s.fault ∧ t.lfc = s.lfc ∧ t.addr = s.addr ∧ t.cfg = s.cfg ∧ t.events = s.events := by
  cases h <;> exact ⟨rfl, rfl, rfl, rfl, rfl⟩

/-- R26, R30, R34: what a step leaves alone unless it takes a reset. -/
theorem StepEffect.frame (h : StepEffect s t) :
    (t.lfc = s.lfc ∧ t.addr = s.addr ∧ t.cfg = s.cfg) ∨
    ∃ a rest, s.events = .reset a :: rest ∧ t = resetWith a (s.withEvents rest) := by
  cases h with
  | command w rest i t he hd hc =>
    obtain ⟨-, -, hlfc, haddr, hcfg, -⟩ := hc.frame
    exact .inl ⟨hlfc, haddr, hcfg⟩
  | answer n a rest t he ha =>
    obtain ⟨-, hlfc, haddr, hcfg, -⟩ := ha.frame
    exact .inl ⟨hlfc, haddr, hcfg⟩
  | reset a rest he => exact .inr ⟨a, rest, he, rfl⟩
  | wait | illegalNotAccepted | illegalBusy | illegal => exact .inl ⟨rfl, rfl, rfl⟩

/-! ### The read frame (R21) -/

/-- R45: an answer writes `RF` only where it is `Ok(b)` to a pending read. -/
theorem AnswerEffect.rf (h : AnswerEffect s n a t) :
    t.rf = s.rf ∨ ∃ p b, s.pend = some p ∧ p.kind = .read ∧ n + 1 = s.requests.length ∧ a = .readOk b ∧ t.rf = b := by
  cases h with
  | initRead b hf hp hn | resync b hf hp hn | rddev b hf hp hn | getmag b hf hp hn =>
    exact .inr ⟨_, b, hp, rfl, hn, rfl, rfl⟩
  | dropped | failed | initWrite | wrdev => exact .inl rfl

/-- Settles O43: of a step's parts only an answer and a reset write `RF`. -/
theorem readFrameWrittenOnlyByReads : Obligations.ReadFrameWrittenOnlyByReads := by
  intro s t hstep
  cases step_inversion hstep with
  | command w rest i t he hd hc =>
    obtain ⟨hrf, -⟩ := hc.frame
    exact .inl hrf
  | answer n a rest t he ha =>
    refine ha.rf.imp_right fun ⟨p, b, hp, hk, hn, hb, hrf⟩ => .inl ⟨p, n, b, rest, hp, hk, hn, ?_, hrf⟩
    rw [he, hb]
  | reset a rest he => exact .inr (.inr ⟨a, rest, he, rfl⟩)
  | wait | illegalNotAccepted | illegalBusy | illegal => exact .inl rfl

/-! ### The write frame (R22, R31) -/

/-- R31: `t`'s write frame agrees with `s`'s on every bit that no write field of `s`'s table covers. -/
def UncoveredKept (s t : State) : Prop :=
  ∀ i : Fin 4, t.wf[i] &&& ~~~(s.cfg.table.wt.covered i) = s.wf[i] &&& ~~~(s.cfg.table.wt.covered i)

theorem uncoveredKept_of_wf_eq (h : t.wf = s.wf) : UncoveredKept s t := fun i => by rw [h]

/-- R102: the echo's three merges are merges into named fields. -/
theorem uncoveredKept_echo (s : State) : UncoveredKept s (echo s) := by
  obtain ⟨-, -, -, -, hres1, hres2, hres3⟩ := lookup_named s.cfg.table.wt
  intro i
  simp only [echo, setSync_wf, mergeField_wf, merge_uncovered hres1, merge_uncovered hres2, merge_uncovered hres3]

/-- R100: INIT's four configuration merges are merges into named fields. -/
theorem uncoveredKept_programConfig (s : State) : UncoveredKept s (programConfig s) := by
  obtain ⟨hparity, haddr, hfast, hlow, -⟩ := lookup_named s.cfg.table.wt
  intro i
  simp only [programConfig, mergeField_wf, merge_uncovered hparity, merge_uncovered haddr, merge_uncovered hfast,
    merge_uncovered hlow]

/-- R22: a command writes `WF` only where it is a SETW, by one merge into an assigned field. -/
theorem CommandEffect.wf (h : CommandEffect s i t) :
    t.wf = s.wf ∨ (UncoveredKept s t ∧ ∃ fid v, i = .setw fid v) := by
  cases h with
  | setw fid v spec hi hs =>
    refine .inr ⟨fun j => ?_, fid, v, rfl⟩
    simp only [clearSyncIfReserved_eq, respond_wf, mergeField_wf, merge_uncovered hs]
  | _ => exact .inl rfl

/-- R22: an answer writes `WF` only where it is `Ok(b)` to the read of INIT or RESYNC. -/
theorem AnswerEffect.wf (h : AnswerEffect s n a t) :
    t.wf = s.wf ∨ (UncoveredKept s t ∧ n + 1 = s.requests.length ∧ (∃ b, a = .readOk b) ∧
      (s.pend = some .initRead ∨ s.pend = some .resyncRead)) := by
  cases h with
  | initRead b hf hp hn =>
    refine .inr ⟨fun j => ?_, hn, ⟨b, rfl⟩, .inl hp⟩
    exact (uncoveredKept_programConfig _ j).trans (uncoveredKept_echo (replaceReadFrame b s) j)
  | resync b hf hp hn => exact .inr ⟨uncoveredKept_echo (replaceReadFrame b s), hn, ⟨b, rfl⟩, .inr hp⟩
  | dropped | failed | rddev | getmag | initWrite | wrdev => exact .inl rfl

/-- Settles O44: a step that takes no reset writes `WF` by merges into named or assigned fields alone. -/
theorem writeFrameWrittenOnlyByMerges : Obligations.WriteFrameWrittenOnlyByMerges := by
  intro s t hstep
  cases step_inversion hstep with
  | command w rest i t he hd hc =>
    rcases hc.wf with hwf | ⟨hkept, fid, v, rfl⟩
    · exact .inr ⟨uncoveredKept_of_wf_eq hwf, .inl hwf⟩
    · exact .inr ⟨hkept, .inr (.inl ⟨w, fid, v, rest, he, hd⟩)⟩
  | answer n a rest t he ha =>
    rcases ha.wf with hwf | ⟨hkept, hn, ⟨b, rfl⟩, hp⟩
    · exact .inr ⟨uncoveredKept_of_wf_eq hwf, .inl hwf⟩
    · exact .inr ⟨hkept, .inr (.inr ⟨n, b, rest, hn, he, hp⟩)⟩
  | reset a rest he => exact .inl ⟨a, rest, he, rfl⟩
  | wait | illegalNotAccepted | illegalBusy | illegal => exact .inr ⟨uncoveredKept_of_wf_eq rfl, .inl rfl⟩

/-! ### `PHASE` (R23) -/

/-- R100: an answer writes `PHASE` only where it is `Ok` to INIT's write. -/
theorem AnswerEffect.phase (h : AnswerEffect s n a t) :
    t.phase = s.phase ∨ (t.phase = .ready ∧ n + 1 = s.requests.length ∧ a = .writeOk ∧
      (∃ w, s.pend = some (.initWrite w)) ∧ t.responses = s.responses ++ [Response.done]) := by
  cases h with
  | initWrite w hf hp hn => exact .inr ⟨rfl, hn, rfl, ⟨w, hp⟩, rfl⟩
  | dropped | failed | initRead | resync | rddev | getmag | wrdev => exact .inl rfl

/-- R23: a step leaves `PHASE`, or completes INIT with `OK` and makes it `READY`, or takes a reset and makes it `UNINIT`. -/
theorem StepEffect.phase (h : StepEffect s t) :
    t.phase = s.phase ∨
    (t.phase = .ready ∧ ∃ w n rest, s.pend = some (.initWrite w) ∧ n + 1 = s.requests.length ∧
      s.events = .answer n .writeOk :: rest ∧ t.responses = s.responses ++ [⟨.ok, .empty⟩]) ∨
    (t.phase = .uninit ∧ ∃ a rest, s.events = .reset a :: rest) := by
  cases h with
  | command w rest i t he hd hc =>
    obtain ⟨-, hphase, -⟩ := hc.frame
    exact .inl hphase
  | answer n a rest t he ha =>
    rcases ha.phase with hphase | ⟨hready, hn, rfl, ⟨w, hp⟩, hresp⟩
    · exact .inl hphase
    · exact .inr (.inl ⟨hready, w, n, rest, hp, hn, he, hresp⟩)
  | reset a rest he => exact .inr (.inr ⟨rfl, a, rest, he⟩)
  | wait | illegalNotAccepted | illegalBusy | illegal => exact .inl rfl

/-- Settles O45: of the three things a step can do to `PHASE`, each change of it is one. -/
theorem phaseReadyOnlyByInit : Obligations.PhaseReadyOnlyByInit := by
  intro s t hstep
  rcases (step_inversion hstep).phase with hsame | ⟨hready, hinit⟩ | ⟨huninit, hreset⟩
  · exact ⟨fun hs ht => by simp [hsame, hs] at ht, fun hs ht => by simp [hsame, hs] at ht⟩
  · exact ⟨fun _ _ => hinit, fun _ ht => by simp [hready] at ht⟩
  · exact ⟨fun _ ht => by simp [huninit] at ht, fun _ _ => hreset⟩

/-! ### `RSV_SYNC` (R28) -/

/-- R82: the reserved write fields by number. -/
theorem isReservedWriteId_iff {fid : BitVec 4} : isReservedWriteId fid = true ↔ fid = 8 ∨ fid = 9 ∨ fid = 10 := by
  simp [isReservedWriteId, or_assoc]

/-- R86: a command writes `RSV_SYNC` only where it is a SETW of a reserved write field, and clears it. -/
theorem CommandEffect.rsvSync (h : CommandEffect s i t) :
    t.rsvSync = s.rsvSync ∨ (t.rsvSync = false ∧ ∃ fid v, i = .setw fid v ∧ (fid = 8 ∨ fid = 9 ∨ fid = 10)) := by
  cases h with
  | setw fid v spec hi hs =>
    cases hr : isReservedWriteId fid with
    | false => exact .inl (by simp [clearSyncIfReserved_eq, hr])
    | true => exact .inr ⟨by simp [clearSyncIfReserved_eq, hr], fid, v, rfl, isReservedWriteId_iff.mp hr⟩
  | _ => exact .inl rfl

/-- R28: an answer sets `RSV_SYNC` only where it is `Ok(b)` to the read of INIT or RESYNC, and clears it only where it is
`Ok` to a write. -/
theorem AnswerEffect.rsvSync (h : AnswerEffect s n a t) :
    t.rsvSync = s.rsvSync ∨
    (t.rsvSync = true ∧ n + 1 = s.requests.length ∧ (∃ b, a = .readOk b) ∧
      (s.pend = some .initRead ∨ s.pend = some .resyncRead)) ∨
    (t.rsvSync = false ∧ n + 1 = s.requests.length ∧ a = .writeOk ∧ ∃ p, s.pend = some p ∧ p.kind = .write) := by
  cases h with
  | initRead b hf hp hn => exact .inr (.inl ⟨rfl, hn, ⟨b, rfl⟩, .inl hp⟩)
  | resync b hf hp hn => exact .inr (.inl ⟨rfl, hn, ⟨b, rfl⟩, .inr hp⟩)
  | initWrite w hf hp hn | wrdev w hf hp hn => exact .inr (.inr ⟨rfl, hn, rfl, _, hp, rfl⟩)
  | dropped | failed | rddev | getmag => exact .inl rfl

/-- R28: everything a step can do to `RSV_SYNC`. -/
theorem StepEffect.rsvSync (h : StepEffect s t) :
    t.rsvSync = s.rsvSync ∨
    (t.rsvSync = true ∧ ∃ n b rest, n + 1 = s.requests.length ∧ s.events = .answer n (.readOk b) :: rest ∧
      (s.pend = some .initRead ∨ s.pend = some .resyncRead)) ∨
    (t.rsvSync = false ∧
      ((∃ p n rest, s.pend = some p ∧ p.kind = .write ∧ n + 1 = s.requests.length ∧
        s.events = .answer n .writeOk :: rest) ∨
      (∃ w fid v rest, s.events = .command w :: rest ∧ decode s.cfg w = .ok (.setw fid v) ∧
        (fid = 8 ∨ fid = 9 ∨ fid = 10)) ∨
      (∃ a rest, s.events = .reset a :: rest))) := by
  cases h with
  | command w rest i t he hd hc =>
    rcases hc.rsvSync with hsame | ⟨hclear, fid, v, rfl, hfid⟩
    · exact .inl hsame
    · exact .inr (.inr ⟨hclear, .inr (.inl ⟨w, fid, v, rest, he, hd, hfid⟩)⟩)
  | answer n a rest t he ha =>
    rcases ha.rsvSync with hsame | ⟨hset, hn, ⟨b, rfl⟩, hp⟩ | ⟨hclear, hn, rfl, p, hp, hk⟩
    · exact .inl hsame
    · exact .inr (.inl ⟨hset, n, b, rest, hn, he, hp⟩)
    · exact .inr (.inr ⟨hclear, .inl ⟨p, n, rest, hp, hk, hn, he⟩⟩)
  | reset a rest he => exact .inr (.inr ⟨rfl, .inr (.inr ⟨a, rest, he⟩)⟩)
  | wait | illegalNotAccepted | illegalBusy | illegal => exact .inl rfl

/-- Settles O46: of the three things a step can do to `RSV_SYNC`, each change of it is one. -/
theorem syncFlagWriters : Obligations.SyncFlagWriters := by
  intro s t hstep
  rcases (step_inversion hstep).rsvSync with hsame | ⟨hset, hread⟩ | ⟨hclear, hwriter⟩
  · exact ⟨fun hs ht => by simp [hsame, hs] at ht, fun hs ht => by simp [hsame, hs] at ht⟩
  · exact ⟨fun _ _ => hread, fun _ ht => by simp [hset] at ht⟩
  · exact ⟨fun _ ht => by simp [hclear] at ht, fun _ _ => hwriter⟩

/-! ### The configuration, `LFC` and `ADDR` (R26, R30, R34) -/

/-- Settles O47, from what a step leaves alone unless it takes a reset. -/
theorem configurationLfcAndAddrFixed : Obligations.ConfigurationLfcAndAddrFixed := by
  intro s t hstep
  rcases (step_inversion hstep).frame with ⟨hlfc, haddr, hcfg⟩ | ⟨a, rest, he, rfl⟩
  · exact ⟨hcfg, .inl ⟨hlfc, haddr⟩⟩
  · exact ⟨rfl, .inr ⟨a, rest, he, rfl, rfl⟩⟩

end Sys2Proof.Machine
end

section
/-! Responses sent and responses owed (R27, R140, R166), up to O50: a command that is accepted moves from the events to
`PEND` or to its response, an answer moves it from `PEND` to its response, and a step without a fault does nothing else
to either. -/

namespace Sys2Proof.Machine

variable {s t : State} {i : Instr} {n : Nat} {a : BusAnswer}

/-- A run of `k + 1` steps takes a step and then `k` steps. -/
theorem run_succ_iff {k : Nat} :
    Host.Core.run core (k + 1) s = .next t ↔ ∃ u, step s = .next u ∧ Host.Core.run core k u = .next t := by
  obtain ⟨u, hu, -⟩ := step_effect s
  simp [Host.Core.run, show core.step s = .next u from hu, hu]

/-- R143: a command that ends without a fault was taken without one. -/
theorem CommandEffect.fault_none (h : CommandEffect s i t) (hf : t.fault = .none) : s.fault = .none := by
  cases h with
  | notAccepted i hs => exact hf
  | busy i hs hp => exact hs
  | setw fid v spec hi | unassigned i hi | init hi | resync hi | getr fid spec hi | rddev hi | wrdev hi | unsynced hi
  | getmag hi | uninitialized hi => exact hi.1

/-- R27: a command that ends without a fault is answered at once or is the pending one. -/
theorem CommandEffect.completes (h : CommandEffect s i t) (hf : t.fault = .none) :
    t.responses.length + t.pend.toList.length = s.responses.length + s.pend.toList.length + 1 := by
  cases h with
  | notAccepted i hs => exact absurd hf hs
  | setw fid v spec hi => simp [clearSyncIfReserved_eq, hi.2]
  | getr fid spec hi => simp [hi.2]
  | init hi | resync hi | rddev hi | wrdev hi | getmag hi => simp [hi.2]
  | busy | unassigned | unsynced | uninitialized => cases hf

/-- R27: an answer that ends the pending command is its response; any other leaves both as they were. -/
theorem AnswerEffect.completes (h : AnswerEffect s n a t) :
    t.responses.length + t.pend.toList.length = s.responses.length + s.pend.toList.length := by
  cases h with
  | dropped => rfl
  | initRead b hf hp => simp [initReadDone, busWrite, programConfig, echo, hp]
  | failed p hf hp => simp [hp]
  | resync b hf hp => simp [resyncDone, echo, hp]
  | rddev b hf hp => simp [rddevDone, hp]
  | getmag b hf hp => simp [getmagDone, hp]
  | initWrite w hf hp => simp [initWriteDone, hp]
  | wrdev w hf hp => simp [wrdevDone, hp]

/-- Every step takes the event at the head, if there is one. -/
theorem StepEffect.events (h : StepEffect s t) : t.events = s.events.tail := by
  cases h with
  | wait he => simp [he]
  | command w rest i t he hd hc =>
    obtain ⟨-, -, -, -, -, hev⟩ := hc.frame
    simp [he, hev]
  | answer n a rest t he ha =>
    obtain ⟨-, -, -, -, hev⟩ := ha.frame
    simp [he, hev]
  | illegalNotAccepted w rest e he | illegalBusy w rest e he | illegal w rest e he | reset a rest he => simp [he]

/-- R27, R143: a step that takes no reset and ends without a fault begins without one, and what has been answered and what
is owed add up to the same. -/
theorem StepEffect.conserves (h : StepEffect s t) (hno : ∀ e ∈ s.events, e.isReset = false) (hf : t.fault = .none) :
    s.fault = .none ∧ t.responses.length + t.owed = s.responses.length + s.owed := by
  have hev := h.events
  cases h with
  | wait => exact ⟨hf, rfl⟩
  | command w rest i t he hd hc =>
    have hsum := hc.completes hf
    refine ⟨hc.fault_none hf, ?_⟩
    rw [State.owed, State.owed, hev, he, List.tail_cons, List.countP_cons_of_pos rfl]
    simp only [withEvents_responses, withEvents_pend] at hsum
    omega
  | answer n a rest t he ha =>
    obtain ⟨hfault, -⟩ := ha.frame
    have hsum := ha.completes
    refine ⟨hfault.symm.trans hf, ?_⟩
    rw [State.owed, State.owed, hev, he, List.tail_cons, List.countP_cons_of_neg (by simp [Event.isCommand])]
    simp only [withEvents_responses, withEvents_pend] at hsum
    omega
  | reset a rest he => simp [he, Event.isReset] at hno
  | illegalNotAccepted w rest e he hd hs => exact absurd hf hs
  | illegalBusy | illegal => cases hf

/-- A run without resets that ends without a fault begins without one and conserves the same sum: the induction needs both,
for the fault of a step is known only from the steps after it. -/
theorem run_conserves (k : Nat) (hno : ∀ e ∈ s.events, e.isReset = false) (hrun : Host.Core.run core k s = .next t)
    (hf : t.fault = .none) : s.fault = .none ∧ t.responses.length + t.owed = s.responses.length + s.owed := by
  induction k generalizing s with
  | zero =>
    cases hrun
    exact ⟨hf, rfl⟩
  | succ k ih =>
    obtain ⟨u, hstep, hrun⟩ := run_succ_iff.mp hrun
    have heff := step_inversion hstep
    obtain ⟨hu, hsum⟩ := ih (fun e he => hno e (List.mem_of_mem_tail (heff.events ▸ he))) hrun
    obtain ⟨hs, hsum'⟩ := heff.conserves hno hu
    exact ⟨hs, hsum.trans hsum'⟩

/-- Settles O50, by induction on the number of steps. -/
theorem commandsCompleteExactlyOnce : Obligations.CommandsCompleteExactlyOnce :=
  fun k _ _ hno hrun hf => (run_conserves k hno hrun hf).2

end Sys2Proof.Machine
end

section
/-! Non-interference of the write frame (R22, R150), up to O52: a command, an answer and a step take two machines that
differ in `WF` alone to two that differ only in `WF`, in the snapshot of a pending write and in the requests' bytes. -/

namespace Sys2Proof.Machine

/-- `SameButWriteFrame s u`: `u` is `s` but for the write frame and what a write request carries of it. -/
inductive SameButWriteFrame (s : State) : State → Prop where
  | mk (wf : WriteFrame) (p : Option Pending) (q : List BusRequest) (hcmd : p.map Pending.cmd = s.pend.map Pending.cmd)
      (hstage : p.map Pending.stage = s.pend.map Pending.stage) (hlen : q.length = s.requests.length) :
      SameButWriteFrame s { s with wf := wf, pend := p, requests := q }

variable (s : State) (wf : WriteFrame)

/-- The state with another write frame. -/
def State.withWf (s : State) (wf : WriteFrame) : State := { s with wf := wf }

variable (s : State) (wf : WriteFrame)

@[simp] theorem withWf_pend : (s.withWf wf).pend = s.pend := rfl
@[simp] theorem withWf_phase : (s.withWf wf).phase = s.phase := rfl
@[simp] theorem withWf_rsvSync : (s.withWf wf).rsvSync = s.rsvSync := rfl
@[simp] theorem withWf_faulted : (s.withWf wf).faulted = s.faulted := rfl
@[simp] theorem withWf_cfg : (s.withWf wf).cfg = s.cfg := rfl
@[simp] theorem withWf_requests : (s.withWf wf).requests = s.requests := rfl

theorem sameButWriteFrame_withWf : SameButWriteFrame s (s.withWf wf) := .mk wf s.pend s.requests rfl rfl rfl

/-- R44, R46: two requests of one command and stage differ at most in the snapshot. -/
theorem sameButWriteFrame_issueTransfer {p p' : Pending} (hcmd : p'.cmd = p.cmd) (hstage : p'.stage = p.stage) :
    SameButWriteFrame (issueTransfer p s) (issueTransfer p' (s.withWf wf)) :=
  .mk wf (some p') (s.requests ++ [p'.request s.addr]) (congrArg some hcmd) (congrArg some hstage) (by simp)

/-- R144: the checks before a command do not read `WF`. -/
theorem sameButWriteFrame_whenFree (w : CmdWord) {k : State → State} (hk : SameButWriteFrame (k s) (k (s.withWf wf))) :
    SameButWriteFrame (whenFree w k s) (whenFree w k (s.withWf wf)) := by
  rcases whenFree_cases w k s with ⟨hf, h⟩ | ⟨hf, hp, h⟩ | ⟨hi, h⟩
  · rw [h, whenFree_faulted (s := s.withWf wf) hf]
    exact sameButWriteFrame_withWf s wf
  · rw [h, whenFree_busy (s := s.withWf wf) hf hp]
    exact sameButWriteFrame_withWf (raiseFault .commandWhileBusy w s) wf
  · rw [h, whenFree_idle (s := s.withWf wf) hi]
    exact hk

/-- R86: what a SETW does beside its merge does not read `WF`. -/
theorem sameButWriteFrame_setwDone (fid : BitVec 4) (spec : WriteFieldSpec) (v : Byte) :
    SameButWriteFrame (respond Response.done (clearSyncIfReserved fid (mergeField spec v s)))
      (respond Response.done (clearSyncIfReserved fid (mergeField spec v (s.withWf wf)))) := by
  rw [clearSyncIfReserved_eq, clearSyncIfReserved_eq]
  exact .mk (merge wf spec v) s.pend s.requests rfl rfl rfl

/-- Both outcomes are next states, the same but for the write frame. -/
inductive OutcomesAgree : Host.Outcome State Fault Refusal → Host.Outcome State Fault Refusal → Prop where
  | next {t u : State} (h : SameButWriteFrame t u) : OutcomesAgree (.next t) (.next u)

/-- R150: no command reads `WF` but to send it. -/
theorem exec_agrees (i : Instr) : OutcomesAgree (exec i s) (exec i (s.withWf wf)) := by
  cases i with
  | init | resync | rddev =>
    exact .next (sameButWriteFrame_whenFree s wf _ (sameButWriteFrame_issueTransfer s wf rfl rfl))
  | setw fid v =>
    refine .next (sameButWriteFrame_whenFree s wf _ ?_)
    rw [withWf_cfg]
    cases s.cfg.table.wt.lookup fid with
    | none => exact sameButWriteFrame_withWf (raiseFault _ _ s) wf
    | some spec => exact sameButWriteFrame_setwDone s wf fid spec v
  | getr fid =>
    refine .next (sameButWriteFrame_whenFree s wf _ ?_)
    rw [withWf_cfg]
    cases s.cfg.table.rt.lookup fid with
    | none => exact sameButWriteFrame_withWf (raiseFault _ _ s) wf
    | some spec => exact sameButWriteFrame_withWf (respond _ s) wf
  | wrdev =>
    refine .next (sameButWriteFrame_whenFree s wf _ ?_)
    rw [withWf_rsvSync]
    cases s.rsvSync with
    | false => exact sameButWriteFrame_withWf (raiseFault _ _ s) wf
    | true => exact sameButWriteFrame_issueTransfer s wf rfl rfl
  | getmag =>
    refine .next (sameButWriteFrame_whenFree s wf _ ?_)
    rw [withWf_phase]
    cases s.phase with
    | uninit => exact sameButWriteFrame_withWf (raiseFault _ _ s) wf
    | ready => exact sameButWriteFrame_issueTransfer s wf rfl rfl

/-- R60: decoding does not read `WF`. -/
theorem issueWord_agrees (w : CmdWord) : OutcomesAgree (issueWord w s) (issueWord w (s.withWf wf)) := by
  rw [issueWord, issueWord, withWf_cfg]
  cases decode s.cfg w with
  | error e =>
    exact .next (sameButWriteFrame_whenFree s wf w (sameButWriteFrame_withWf (raiseFault .illegalCommand w s) wf))
  | ok i => exact exec_agrees s wf i

/-- R45, R145: the shared effect of an answer to a read does not read `WF`. -/
theorem sameButWriteFrame_onReadAnswer (a : BusAnswer) {k : State → State}
    (hk : ∀ s : State, SameButWriteFrame (k s) (k (s.withWf wf))) :
    SameButWriteFrame (onReadAnswer a k s) (onReadAnswer a k (s.withWf wf)) := by
  cases a with
  | readOk b => exact hk (replaceReadFrame b s)
  | writeOk => exact sameButWriteFrame_withWf s wf
  | err => exact sameButWriteFrame_withWf (respond Response.failed (release s)) wf

/-- R46, R145: nor does that of an answer to a write. -/
theorem sameButWriteFrame_onWriteAnswer (a : BusAnswer) {k : State → State}
    (hk : ∀ s : State, SameButWriteFrame (k s) (k (s.withWf wf))) :
    SameButWriteFrame (onWriteAnswer a k s) (onWriteAnswer a k (s.withWf wf)) := by
  cases a with
  | writeOk => exact hk (clearSync s)
  | readOk b => exact sameButWriteFrame_withWf s wf
  | err => exact sameButWriteFrame_withWf (respond Response.failed (release s)) wf

/-- R100 to R105, R124, R150: a completion merges into `WF` or sends it, and reads it for nothing else. -/
theorem sameButWriteFrame_complete (p : Pending) (a : BusAnswer) :
    SameButWriteFrame (complete p a s) (complete p a (s.withWf wf)) := by
  cases p with
  | initRead =>
    exact sameButWriteFrame_onReadAnswer s wf a fun s =>
      sameButWriteFrame_issueTransfer (programConfig (echo s)) (programConfig (echo (s.withWf wf))).wf rfl rfl
  | resyncRead =>
    exact sameButWriteFrame_onReadAnswer s wf a fun s =>
      sameButWriteFrame_withWf (resyncDone s) (echo (s.withWf wf)).wf
  | rddevRead => exact sameButWriteFrame_onReadAnswer s wf a fun s => sameButWriteFrame_withWf (rddevDone s) wf
  | getmagRead => exact sameButWriteFrame_onReadAnswer s wf a fun s => sameButWriteFrame_withWf (getmagDone s) wf
  | initWrite w => exact sameButWriteFrame_onWriteAnswer s wf a fun s => sameButWriteFrame_withWf (initWriteDone s) wf
  | wrdevWrite w => exact sameButWriteFrame_onWriteAnswer s wf a fun s => sameButWriteFrame_withWf (wrdevDone s) wf

/-- R44: whether an answer is taken does not depend on `WF`. -/
theorem sameButWriteFrame_busAnswer (n : Nat) (a : BusAnswer) :
    SameButWriteFrame (busAnswer n a s) (busAnswer n a (s.withWf wf)) := by
  rw [busAnswer, busAnswer, withWf_faulted, withWf_pend, withWf_requests]
  split
  · exact sameButWriteFrame_withWf s wf
  · cases s.pend with
    | none => exact sameButWriteFrame_withWf s wf
    | some p =>
      dsimp only
      split
      · exact sameButWriteFrame_complete s wf p a
      · exact sameButWriteFrame_withWf s wf

/-- R22, R150: no step reads `WF` but to send it. -/
theorem step_agrees : OutcomesAgree (step s) (step (s.withWf wf)) := by
  cases he : s.events with
  | nil =>
    rw [step_wait he, step_wait (s := s.withWf wf) he]
    exact .next (sameButWriteFrame_withWf s wf)
  | cons e rest =>
    cases e with
    | command w =>
      rw [step_command he, step_command (s := s.withWf wf) he]
      exact issueWord_agrees (s.withEvents rest) wf w
    | answer n a =>
      rw [step_answer he, step_answer (s := s.withWf wf) he]
      exact .next (sameButWriteFrame_busAnswer (s.withEvents rest) wf n a)
    | reset a =>
      rw [step_reset he, step_reset (s := s.withWf wf) he]
      exact .next (sameButWriteFrame_withWf (resetWith a (s.withEvents rest)) _)

/-- Settles O52: the two steps agree, and what the statement names is what the agreement keeps. -/
theorem writeFrameIsNeverReadBack : Obligations.WriteFrameIsNeverReadBack := by
  intro s t w hstep
  have hagree := step_agrees s w
  rw [hstep] at hagree
  generalize hu : step (s.withWf w) = o at hagree
  obtain ⟨⟨wf, p, q, hcmd, hstage, hlen⟩⟩ := hagree
  exact ⟨_, hu, rfl, rfl, rfl, rfl, rfl, rfl, rfl, rfl, hcmd, hstage, hlen⟩

end Sys2Proof.Machine
end

section
/-! Bus requests and the write they carry (R24, R30, R44, R46): which step issues a request and what the request is, and
what a pending write and its completion leave of the write frame. O48 and O49 are assembled from these. -/

namespace Sys2Proof.Machine

variable {s t : State} {i : Instr} {n : Nat} {a : BusAnswer} {p : Pending} {w : WriteFrame}

/-! ### Requests (R44) -/

/-- R44, R46: the request of a transfer is a write exactly where the transfer holds a snapshot, which it then carries. -/
theorem request_eq_write_iff {addr b : Byte} : p.request addr = .write b w ↔ addr = b ∧ p.wsnap = some w := by
  cases p <;> simp [Pending.request, Pending.wsnap]

/-- R44, R46: a command issues a request only on an idle machine, and a write's snapshot is then the write frame. -/
theorem CommandEffect.requests (h : CommandEffect s i t) :
    t.requests = s.requests ∨
    ∃ p, s.idle ∧ t = issueTransfer p s ∧ ∀ w, p.wsnap = some w → w = s.wf := by
  cases h with
  | init hi | resync hi | rddev hi | getmag hi => exact .inr ⟨_, hi, rfl, fun _ hw => nomatch hw⟩
  | wrdev hi => exact .inr ⟨_, hi, rfl, fun _ hw => (Option.some.inj hw).symm⟩
  | setw => exact .inl (by simp [clearSyncIfReserved_eq])
  | notAccepted | busy | unassigned | getr | unsynced | uninitialized => exact .inl rfl

/-- R100: an answer makes the machine issue a request only where it is `Ok(b)` to INIT's read, and the request is then
INIT's write of the frame just programmed. -/
theorem AnswerEffect.requests (h : AnswerEffect s n a t) :
    t.requests = s.requests ∨
    (s.fault = .none ∧ s.pend = some .initRead ∧ n + 1 = s.requests.length ∧ (∃ b, a = .readOk b) ∧
      t.pend = some (.initWrite t.wf) ∧ t.requests = s.requests ++ [(Pending.initWrite t.wf).request s.addr]) := by
  cases h with
  | initRead b hf hp hn => exact .inr ⟨hf, hp, hn, ⟨b, rfl⟩, rfl, rfl⟩
  | dropped | failed | resync | rddev | getmag | initWrite | wrdev => exact .inl rfl

/-- Settles O48: of a step's parts only a command and an answer issue a request. -/
theorem oneRequestAtATime : Obligations.OneRequestAtATime := by
  intro s t hstep
  cases step_inversion hstep with
  | command w rest i t he hd hc =>
    refine hc.requests.imp_right fun ⟨p, hi, ht, hsnap⟩ => ?_
    subst ht
    exact ⟨p, rfl, rfl, hi.1, .inl hi.2, hsnap⟩
  | answer n a rest t he ha =>
    refine ha.requests.imp_right fun ⟨hf, hp, hn, ⟨b, hb⟩, hpend, hreq⟩ => ?_
    subst hb
    exact ⟨_, hreq, hpend, hf, .inr ⟨hp, rfl, n, b, rest, hn, he⟩, fun _ hw => (Option.some.inj hw).symm⟩
  | wait | illegalNotAccepted | illegalBusy | illegal | reset => exact .inl rfl

/-! ### The pending write and its completion (R46) -/

/-- R46, R145: the answer `Ok` to a pending write ends it and clears `RSV_SYNC`, and leaves `WF`. -/
theorem complete_writeOk (hk : p.kind = .write) (s : State) :
    (complete p .writeOk s).wf = s.wf ∧ (complete p .writeOk s).rsvSync = false ∧
      (complete p .writeOk s).pend = none := by
  cases p with
  | initWrite | wrdevWrite => exact ⟨rfl, rfl, rfl⟩
  | initRead | resyncRead | rddevRead | getmagRead => cases hk

/-- R145: the answer `Err` ends any transfer with an error response and changes nothing else. -/
theorem complete_err (p : Pending) (s : State) : complete p .err s = respond Response.failed (release s) := by
  cases p <;> rfl

/-- R163: a busy machine accepts no command, so none writes `WF`. -/
theorem CommandEffect.wf_of_busy (h : CommandEffect s i t) (hp : s.pend ≠ none) : t.wf = s.wf := by
  cases h with
  | setw fid v spec hi => exact absurd hi.2 hp
  | _ => rfl

/-- R46: an answer does not write `WF` while a write is pending. -/
theorem AnswerEffect.wf_of_write (h : AnswerEffect s n a t) (hp : s.pend = some p) (hsnap : p.wsnap = some w) :
    t.wf = s.wf := by
  rcases h.wf with hwf | ⟨-, -, -, hread | hread⟩
  · exact hwf
  · cases hp.symm.trans hread
    cases hsnap
  · cases hp.symm.trans hread
    cases hsnap

/-- R46, R163: a step that leaves a pending write pending leaves `WF`. -/
theorem StepEffect.wf_of_write (h : StepEffect s t) (hp : s.pend = some p) (hsnap : p.wsnap = some w)
    (hp' : t.pend = some p) : t.wf = s.wf := by
  cases h with
  | command w rest i t he hd hc => exact hc.wf_of_busy (by simp [hp])
  | answer n a rest t he ha => exact ha.wf_of_write hp hsnap
  | reset => cases hp'
  | wait | illegalNotAccepted | illegalBusy | illegal => rfl

/-- Settles O49: the request issued is O48's, and the completions are the model's own. -/
theorem busWriteSnapshotAndCompletion : Obligations.BusWriteSnapshotAndCompletion := by
  refine ⟨fun s t a w hstep hreq => ?_, fun s t p rest hk hans hstep => ?_, fun s t p rest _ hans hstep => ?_,
    fun s t p hp hsnap hstep hp' => (step_inversion hstep).wf_of_write hp hsnap hp'⟩
  · rcases oneRequestAtATime s t hstep with hnone | ⟨p, hp, hpend, -, -, hsnap⟩
    · simp [hnone] at hreq
    · rw [hp, List.append_right_inj, List.singleton_inj] at hreq
      obtain ⟨haddr, hw⟩ := request_eq_write_iff.mp hreq
      exact ⟨haddr.symm, hsnap w hw, p, hpend, hw⟩
  · rw [step_answerNext hans] at hstep
    cases hstep
    exact complete_writeOk hk (s.withEvents rest)
  · rw [step_answerNext hans, complete_err] at hstep
    cases hstep
    exact ⟨rfl, rfl, rfl⟩

end Sys2Proof.Machine
end

section
/-! The decoder and the encoder (R61 to R67): a word is its three fields, and a word decodes to a command exactly
where it is the word of that command and the command's field id is assigned. O1 to O5 rest on this; O7 and O8 run a
word that decodes, and O6 and O59 evaluate the decoder and the assembler. -/

namespace Sys2Proof

variable {c : Config} {w : CmdWord} {i j : Instr} {op fid : BitVec 4} {imm : Byte}

/-! ### The fields of a word (R61) -/

@[simp] theorem fieldsWord_fields (w : CmdWord) : fieldsWord (opField w) (fidField w) (immField w) = w := by
  have hop : opField w ++ fidField w = w.extractLsb' 8 8 := BitVec.extractLsb'_append_extractLsb'_eq_extractLsb' rfl
  have hword : w.extractLsb' 8 8 ++ immField w = w.extractLsb' 0 16 :=
    BitVec.extractLsb'_append_extractLsb'_eq_extractLsb' rfl
  rw [fieldsWord, hop, hword, BitVec.extractLsb'_eq_self]

theorem fieldsWord_eq_iff : fieldsWord op fid imm = w ↔ op = opField w ∧ fid = fidField w ∧ imm = immField w := by
  constructor
  · rintro rfl
    simp
  · rintro ⟨rfl, rfl, rfl⟩
    exact fieldsWord_fields w

/-- R62: a mask acts on each field by itself. -/
theorem and_fieldsWord (w : CmdWord) (op fid : BitVec 4) (imm : Byte) :
    w &&& fieldsWord op fid imm = fieldsWord (opField w &&& op) (fidField w &&& fid) (immField w &&& imm) := by
  conv_lhs => rw [← fieldsWord_fields w]
  exact BitVec.and_append.trans (congrArg (· ++ (immField w &&& imm)) BitVec.and_append)

/-! ### What the decoder accepts (R65, R67) -/

theorem decodeFixed_eq_ok_iff : decodeFixed w j = .ok i ↔ j = i ∧ fidField w = 0 ∧ immField w = 0 := by
  unfold decodeFixed
  split
  case isTrue h => simp [h]
  case isFalse h => simpa using fun _ hfid himm => h ⟨hfid, himm⟩

theorem decodeSetw_eq_ok_iff :
    decodeSetw c w = .ok i ↔
      .setw (fidField w) (immField w) = i ∧ (c.table.wt.lookup (fidField w)).isSome = true := by
  unfold decodeSetw
  split <;> simp [*]

theorem decodeGetr_eq_ok_iff :
    decodeGetr c w = .ok i ↔
      .getr (fidField w) = i ∧ immField w = 0 ∧ (c.table.rt.lookup (fidField w)).isSome = true := by
  unfold decodeGetr
  split
  case isTrue himm => simpa using fun _ h => absurd h himm
  case isFalse himm =>
    rw [ne_eq, not_not] at himm
    split <;> simp [*]

theorem decode_encode (h : i.wellFormed c = true) : decode c (encode i) = .ok i := by
  cases i with
  | init | resync | rddev | wrdev | getmag => simp [encode, decode, decodeFixed]
  | setw fid imm =>
    simp only [Instr.wellFormed] at h
    simp [encode, decode, decodeSetw, h]
  | getr fid =>
    simp only [Instr.wellFormed] at h
    simp [encode, decode, decodeGetr, h]

/-- R65: a word that a row without operands accepts has no other bits than its opcode. -/
theorem encode_eq_of_decodeFixed (hop : (opField w).toNat = op.toNat) (hj : encode j = fieldsWord op 0 0)
    (h : decodeFixed w j = .ok i) : encode j = w ∧ j = i := by
  obtain ⟨hji, hfid, himm⟩ := decodeFixed_eq_ok_iff.mp h
  rw [hj, fieldsWord_eq_iff]
  exact ⟨⟨BitVec.eq_of_toNat_eq hop.symm, hfid.symm, himm.symm⟩, hji⟩

theorem encode_eq_of_decode (h : decode c w = .ok i) : encode i = w ∧ i.wellFormed c = true := by
  unfold decode at h
  split at h
  case h_3 hop =>
    obtain ⟨rfl, hfid⟩ := decodeSetw_eq_ok_iff.mp h
    exact ⟨fieldsWord_eq_iff.mpr ⟨BitVec.eq_of_toNat_eq hop.symm, rfl, rfl⟩, hfid⟩
  case h_4 hop =>
    obtain ⟨rfl, himm, hfid⟩ := decodeGetr_eq_ok_iff.mp h
    exact ⟨fieldsWord_eq_iff.mpr ⟨BitVec.eq_of_toNat_eq hop.symm, rfl, himm.symm⟩, hfid⟩
  case h_8 => cases h
  all_goals
    rename_i hop
    obtain ⟨hw, rfl⟩ := encode_eq_of_decodeFixed hop rfl h
    exact ⟨hw, rfl⟩

/-- R61 to R67: what the decoder accepts, said once. -/
theorem decode_eq_ok_iff : decode c w = .ok i ↔ encode i = w ∧ i.wellFormed c = true := by
  constructor
  · exact encode_eq_of_decode
  · rintro ⟨rfl, hi⟩
    exact decode_encode hi

/-- Settles O1, by cases on the command. -/
theorem decodeEncodeRoundTrip : Obligations.DecodeEncodeRoundTrip := fun _ _ => decode_encode

/-- Settles O2, by cases on the opcode. -/
theorem encodeDecodeRoundTrip : Obligations.EncodeDecodeRoundTrip := fun _ _ _ => encode_eq_of_decode

/-! ### The rows of the opcode map (R62) -/

/-- R62: a row without operands has all bits in its mask, so it selects its own word alone. -/
theorem decode_eq_ok_iff_and_mask (hmask : i.maskBits = BitVec.allOnes 16) (hmatch : encode i = i.matchBits)
    (hi : i.wellFormed c = true) : decode c w = .ok i ↔ w &&& i.maskBits = i.matchBits := by
  rw [decode_eq_ok_iff, hmask, BitVec.and_allOnes, ← hmatch, eq_comm (a := w)]
  exact and_iff_left hi

/-- R62: SETW's row leaves both operand fields free. -/
theorem and_setwMask_iff : w &&& 0xF000 = 0x3000 ↔ 3 = opField w := by
  rw [show (0xF000 : CmdWord) = fieldsWord (BitVec.allOnes 4) 0 0 from rfl,
    show (0x3000 : CmdWord) = fieldsWord 3 0 0 from rfl, and_fieldsWord, BitVec.and_allOnes, eq_comm, fieldsWord_eq_iff]
  simp

/-- R62: GETR's row leaves the field id free. -/
theorem and_getrMask_iff : w &&& 0xF0FF = 0x4000 ↔ 4 = opField w ∧ 0 = immField w := by
  rw [show (0xF0FF : CmdWord) = fieldsWord (BitVec.allOnes 4) 0 (BitVec.allOnes 8) from rfl,
    show (0x4000 : CmdWord) = fieldsWord 4 0 0 from rfl, and_fieldsWord, BitVec.and_allOnes, BitVec.and_allOnes,
    eq_comm, fieldsWord_eq_iff]
  simp

/-- Settles O3, row by row: a row's `match` and `mask` fix the fields that are no operands. -/
theorem opcodeRowsSelectByMatchAndMask : Obligations.OpcodeRowsSelectByMatchAndMask := by
  intro c w
  refine ⟨?init, ?resync, ?setw, ?getr, ?rddev, ?wrdev, ?getmag⟩
  case setw =>
    intro fid imm
    rw [decode_eq_ok_iff, and_setwMask_iff, encode, fieldsWord_eq_iff, and_assoc, and_assoc]
    rfl
  case getr =>
    intro fid
    rw [decode_eq_ok_iff, and_getrMask_iff, encode, fieldsWord_eq_iff, and_comm (a := fid = fidField w), ← and_assoc,
      and_assoc (b := fid = fidField w)]
    rfl
  all_goals exact decode_eq_ok_iff_and_mask rfl rfl rfl

/-! ### The illegal words (R66) -/

theorem decodeFixed_eq_error_iff : (∃ e, decodeFixed w i = .error e) ↔ ¬ (fidField w = 0 ∧ immField w = 0) := by
  unfold decodeFixed
  split
  case isTrue h => simp [h]
  case isFalse h => exact iff_of_true ⟨.reservedBits, rfl⟩ h

theorem decodeSetw_eq_error_iff : (∃ e, decodeSetw c w = .error e) ↔ c.table.wt.lookup (fidField w) = none := by
  unfold decodeSetw
  cases c.table.wt.lookup (fidField w) <;> simp

theorem decodeGetr_eq_error_iff :
    (∃ e, decodeGetr c w = .error e) ↔ immField w ≠ 0 ∨ c.table.rt.lookup (fidField w) = none := by
  unfold decodeGetr
  split
  case isTrue himm => exact iff_of_true ⟨.reservedBits, rfl⟩ (.inl himm)
  case isFalse himm =>
    rw [or_iff_right himm]
    cases c.table.rt.lookup (fidField w) <;> simp

/-- R61: bits 11:0 are the two operand fields. -/
theorem operands_eq_zero_iff : w.extractLsb' 0 12 = 0 ↔ fidField w = 0 ∧ immField w = 0 := by
  simp only [fidField, immField, BitVec.toNat_eq, BitVec.extractLsb'_toNat, BitVec.ofNat_eq_ofNat, BitVec.toNat_ofNat,
    Nat.shiftRight_eq_div_pow]
  omega

/-- R66: the words the decoder rejects. -/
theorem decode_eq_error_iff :
    (∃ e, decode c w = .error e) ↔
      ((opField w).toNat = 0 ∨ 8 ≤ (opField w).toNat) ∨
      (((opField w).toNat = 1 ∨ (opField w).toNat = 2 ∨ (opField w).toNat = 5 ∨ (opField w).toNat = 6 ∨
        (opField w).toNat = 7) ∧ w.extractLsb' 0 12 ≠ 0) ∨
      ((opField w).toNat = 4 ∧ immField w ≠ 0) ∨
      ((opField w).toNat = 3 ∧ c.table.wt.lookup (fidField w) = none) ∨
      ((opField w).toNat = 4 ∧ c.table.rt.lookup (fidField w) = none) := by
  unfold decode
  split
  case h_3 hop => simp [hop, decodeSetw_eq_error_iff]
  case h_4 hop => simp [hop, decodeGetr_eq_error_iff]
  case h_8 =>
    refine iff_of_true ⟨.opcode, rfl⟩ (.inl ?_)
    simp only [imp_false] at *
    omega
  all_goals
    rename_i hop
    rw [decodeFixed_eq_error_iff, ← operands_eq_zero_iff, hop]
    simp

/-! ### How many words are legal (R67) -/

/-- R63: the ids the write table assigns. -/
def WriteTable.assigned (t : WriteTable) : Finset (BitVec 4) := Finset.univ.filter fun fid => (t.lookup fid).isSome

/-- R63: the ids the read table assigns. -/
def ReadTable.assigned (t : ReadTable) : Finset (BitVec 4) := Finset.univ.filter fun fid => (t.lookup fid).isSome

/-- R62: the commands without operands. -/
def plainCommands : Finset Instr := {.init, .resync, .rddev, .wrdev, .getmag}

/-- R63, R64: SETW with every assigned id and every immediate. -/
def setwCommands (t : WriteTable) : Finset Instr := (t.assigned ×ˢ Finset.univ).image fun p => .setw p.1 p.2

/-- R63: GETR with every assigned id. -/
def getrCommands (t : ReadTable) : Finset Instr := t.assigned.image .getr

/-- R67: the commands that are well-formed under a configuration. -/
def wellFormedCommands (c : Config) : Finset Instr :=
  plainCommands ∪ (setwCommands c.table.wt ∪ getrCommands c.table.rt)

theorem mem_wellFormedCommands : i ∈ wellFormedCommands c ↔ i.wellFormed c = true := by
  cases i <;>
    simp [wellFormedCommands, plainCommands, setwCommands, getrCommands, WriteTable.assigned, ReadTable.assigned,
      Instr.wellFormed]

theorem card_setwCommands (t : WriteTable) : (setwCommands t).card = t.assigned.card * 256 := by
  rw [setwCommands, Finset.card_image_of_injective _ (fun p q h => by simpa [Prod.ext_iff] using h),
    Finset.card_product, Finset.card_univ, Fintype.card_congr BitVec.equivFin.toEquiv, Fintype.card_fin]
  rfl

theorem card_getrCommands (t : ReadTable) : (getrCommands t).card = t.assigned.card :=
  Finset.card_image_of_injective _ fun _ _ => Instr.getr.inj

/-- R67: "5 + 11*256 + 14", for any table. -/
theorem card_wellFormedCommands (c : Config) :
    (wellFormedCommands c).card = 5 + (c.table.wt.assigned.card * 256 + c.table.rt.assigned.card) := by
  rw [wellFormedCommands, Finset.card_union_of_disjoint, Finset.card_union_of_disjoint, card_setwCommands,
    card_getrCommands]
  · rfl
  · simp only [Finset.disjoint_left, setwCommands, getrCommands, Finset.mem_image]
    rintro _ ⟨p, -, rfl⟩ ⟨fid, -, h⟩
    cases h
  · simp [Finset.disjoint_left, plainCommands, setwCommands, getrCommands]

theorem decode_isOk_iff : (decode c w).isOk = true ↔ ∃ i, decode c w = .ok i := by
  cases decode c w <;> simp [Except.isOk, Except.toBool]

theorem countP_range_eq_card (p : Nat → Bool) (n : Nat) :
    (List.range n).countP p = ((Finset.range n).filter fun k => p k = true).card := by
  rw [← Nat.count_eq_card_filter_range, Nat.count]
  simp

/-- R67: the legal words are as many as the well-formed commands: `encode` maps these onto those, one to one. -/
theorem countP_legal (c : Config) :
    (List.range 65536).countP (fun n => (decode c (BitVec.ofNat 16 n)).isOk) = (wellFormedCommands c).card := by
  rw [countP_range_eq_card]
  symm
  refine Finset.card_bij (fun i _ => (encode i).toNat) (fun i hi => ?_) (fun i hi j hj heq => ?_) fun n hn => ?_
  · have hdec := decode_encode (mem_wellFormedCommands.mp hi)
    rw [Finset.mem_filter, Finset.mem_range, BitVec.ofNat_toNat, BitVec.setWidth_eq, decode_isOk_iff]
    exact ⟨(encode i).isLt, i, hdec⟩
  · have hij : decode c (encode i) = decode c (encode j) := congrArg (decode c) (BitVec.eq_of_toNat_eq heq)
    rw [decode_encode (mem_wellFormedCommands.mp hi), decode_encode (mem_wellFormedCommands.mp hj)] at hij
    exact Except.ok.inj hij
  · obtain ⟨hlt, hok⟩ := Finset.mem_filter.mp hn
    obtain ⟨i, hi⟩ := decode_isOk_iff.mp hok
    obtain ⟨hw, hwf⟩ := encode_eq_of_decode hi
    refine ⟨i, mem_wellFormedCommands.mpr hwf, ?_⟩
    rw [hw, BitVec.toNat_ofNat]
    exact Nat.mod_eq_of_lt (Finset.mem_range.mp hlt)

/-- Settles O5: the default table assigns 11 write ids and 14 read ids. -/
theorem legalWordCountIs2835 : Obligations.LegalWordCountIs2835 := by
  have hwt : WriteTable.default.assigned.card = 11 := by decide
  have hrt : ReadTable.default.assigned.card = 14 := by decide
  rw [Obligations.LegalWordCountIs2835, countP_legal, card_wellFormedCommands]
  change 5 + (WriteTable.default.assigned.card * 256 + ReadTable.default.assigned.card) = 2835
  rw [hwt, hrt]

/-- Settles O6: eleven fixed words, evaluated by the decoder. -/
theorem specWordsDecode : Obligations.SpecWordsDecode := by
  unfold Obligations.SpecWordsDecode
  decide

end Sys2Proof

namespace Sys2Proof.Machine

variable {s : State} {w : CmdWord} {i : Instr} {e : Illegal}

/-! ### Issuing a word (R60, R66) -/

theorem issueWord_ok (h : decode s.cfg w = .ok i) : issueWord w s = exec i s := by simp [issueWord, h]

theorem issueWord_error (h : decode s.cfg w = .error e) :
    issueWord w s = .next (whenFree w (raiseFault .illegalCommand w) s) := by
  simp [issueWord, h, execIllegal]

/-- Settles O4: an idle machine passes checks 1 and 2 of R144, and the third is the decoder's. -/
theorem illegalWordsFaultWithNoOtherEffect : Obligations.IllegalWordsFaultWithNoOtherEffect := by
  refine ⟨fun c w => decode_eq_error_iff, fun s w e rest hi he hd => ?_, fun c => ⟨.opcode, rfl⟩⟩
  have hfree : (s.withEvents rest).idle := hi
  rw [step_command he, issueWord_error (s := s.withEvents rest) hd, whenFree_idle hfree]
  rfl

/-- Settles O7: the step takes the word, and the word issues its command. -/
theorem stepRunsDecodedCommand : Obligations.StepRunsDecodedCommand :=
  fun _ _ _ _ he hd => (step_command he).trans (issueWord_ok hd)

/-- Log 2: placing a word puts it at the head of the events. -/
theorem withFetchWord_toNat (s : State) (w : CmdWord) :
    s.withFetchWord 16 w.toNat = s.withEvents (.command w :: s.events) := by
  rw [State.withFetchWord, Nat.mod_eq_of_lt w.isLt, BitVec.ofNat_toNat, BitVec.setWidth_eq, State.withEvents]

/-- Settles O8, from O7 at the state with the word placed. -/
theorem placedWordRunsNext : Obligations.PlacedWordRunsNext := by
  intro s w i hd
  rw [withFetchWord_toNat]
  exact stepRunsDecodedCommand (s.withEvents (.command w :: s.events)) w i s.events rfl hd

/-! ### The listing (R69) -/

/-- Settles O59: six fixed lines, evaluated by the assembler. -/
theorem assemblerFollowsListing : Obligations.AssemblerFollowsListing := by
  unfold Obligations.AssemblerFollowsListing
  decide

end Sys2Proof.Machine
end

section
/-! Responses (R27, R71, R141), up to O51: what a command and an answer send, and that neither sends anything where it
leaves a fault. -/

namespace Sys2Proof.Machine

variable {s t : State} {i : Instr} {n : Nat} {a : BusAnswer}

/-- R9: a rounded value is a value of the format it is rounded to. -/
@[simp] theorem rne_fmt (f : Fmt) (n : Int) (d : Nat) : (rne f n d).fmt = f := by
  unfold rne
  split <;> exact f.pattern_fmt _ _

/-- R122, R124: the three values of a reading are values of `FMT`. -/
theorem magnetVals_fmt (c : Config) (rf : ReadFrame) :
    ∃ x y z, magnetVals c rf = .magnet x y z ∧ x.fmt = c.fmt ∧ y.fmt = c.fmt ∧ z.fmt = c.fmt :=
  ⟨_, _, _, rfl, rne_fmt _ _ _, rne_fmt _ _ _, rne_fmt _ _ _⟩

/-- R86, R87: of the commands only SETW and GETR send a response, and where they do, no fault stands. -/
theorem CommandEffect.responses (h : CommandEffect s i t) :
    t.responses = s.responses ∨
    (t.fault = .none ∧ ∃ r, t.responses = s.responses ++ [r] ∧
      ((∃ d fid, r = ⟨.ok, .byte d⟩ ∧ i = .getr fid) ∨ (∃ fid v, r = Response.done ∧ i = .setw fid v))) := by
  cases h with
  | setw fid v spec hi hs =>
    exact .inr ⟨by simp [clearSyncIfReserved_eq, hi.1], Response.done, by simp [clearSyncIfReserved_eq],
      .inr ⟨fid, v, rfl, rfl⟩⟩
  | getr fid spec hi hs => exact .inr ⟨hi.1, _, rfl, .inl ⟨_, fid, rfl, rfl⟩⟩
  | notAccepted | busy | unassigned | init | resync | rddev | wrdev | unsynced | getmag | uninitialized =>
    exact .inl rfl

/-- R71, R145 and the completion parts: an answer that is taken ends the pending command with one response, unless it is
INIT's read, which goes on; no fault stands then. -/
theorem AnswerEffect.responses (h : AnswerEffect s n a t) :
    t.responses = s.responses ∨
    (t.fault = .none ∧ n + 1 = s.requests.length ∧ ∃ p r, s.pend = some p ∧ t.responses = s.responses ++ [r] ∧
      ((r = Response.failed ∧ a = .err) ∨
       (∃ b x y z, p = .getmagRead ∧ a = .readOk b ∧ r = ⟨.ok, .magnet x y z⟩ ∧
         x.fmt = s.cfg.fmt ∧ y.fmt = s.cfg.fmt ∧ z.fmt = s.cfg.fmt) ∨
       (r = Response.done ∧ a ≠ .err ∧ p ≠ .getmagRead))) := by
  cases h with
  | dropped | initRead => exact .inl rfl
  | failed p hf hp hn => exact .inr ⟨hf, hn, p, _, hp, rfl, .inl ⟨rfl, rfl⟩⟩
  | getmag b hf hp hn =>
    obtain ⟨x, y, z, hxyz, hfmt⟩ := magnetVals_fmt s.cfg b
    refine .inr ⟨hf, hn, _, ⟨.ok, magnetVals s.cfg b⟩, hp, rfl, .inr (.inl ⟨b, x, y, z, rfl, rfl, ?_, hfmt⟩)⟩
    rw [hxyz]
  | resync b hf hp hn | rddev b hf hp hn | initWrite w hf hp hn | wrdev w hf hp hn =>
    exact .inr ⟨hf, hn, _, _, hp, rfl, .inr (.inr ⟨rfl, nofun, nofun⟩)⟩

/-- The form of O51: a step that sends (`X`) leaves no fault (`F`), so one that leaves a fault sends nothing (`A`). -/
theorem unchanged_and_or {A F X : Prop} (h : A ∨ (F ∧ X)) : (¬ F → A) ∧ (A ∨ X) :=
  ⟨fun hF => h.resolve_right fun hX => hF hX.1, h.imp_right And.right⟩

/-- Settles O51: a step sends what its command or its answer sends. -/
theorem responsesAreWellFormed : Obligations.ResponsesAreWellFormed := by
  intro s t hstep
  refine unchanged_and_or ?_
  cases step_inversion hstep with
  | command w rest i t he hd hc =>
    refine hc.responses.imp_right fun ⟨hf, r, hsent, hr⟩ => ⟨hf, r, hsent, ?_⟩
    rcases hr with ⟨d, fid, rfl, rfl⟩ | ⟨fid, v, rfl, rfl⟩
    · exact .inr (.inl ⟨d, w, fid, rest, rfl, he, hd⟩)
    · exact .inr (.inr (.inr ⟨rfl, .inl ⟨w, fid, v, rest, he, hd⟩⟩))
  | answer n a rest t he ha =>
    refine ha.responses.imp_right fun ⟨hf, hn, p, r, hp, hsent, hr⟩ => ⟨hf, r, hsent, ?_⟩
    rcases hr with ⟨rfl, rfl⟩ | ⟨b, x, y, z, rfl, rfl, rfl, hfmt⟩ | ⟨rfl, ha, hp'⟩
    · exact .inl ⟨rfl, n, rest, p, hn, he, hp⟩
    · exact .inr (.inr (.inl ⟨x, y, z, n, b, rest, rfl, hn, he, hp, hfmt⟩))
    · exact .inr (.inr (.inr ⟨rfl, .inr ⟨p, n, a, rest, hn, he, ha, hp, hp'⟩⟩))
  | wait | illegalNotAccepted | illegalBusy | illegal | reset => exact .inl rfl

end Sys2Proof.Machine
end

section
/-! The field primitives EXTRACT and MERGE (R84, R85, R88), up to O15, O16 and O17: facts about one byte, and from
these the laws of frames. -/

namespace Sys2Proof.Machine

/-! ### One byte -/

section

variable (old mask mask' v v' : Byte) (shift shift' : Fin 8)

/-- R85: the bits of the mask hold the shifted value. -/
theorem mergeByte_inside : mergeByte old mask shift v &&& mask = (v <<< shift.val) &&& mask := by
  ext i hi
  simp only [mergeByte, BitVec.getElem_and, BitVec.getElem_or, BitVec.getElem_not]
  cases mask[i] <;> simp

/-- R85: a value shifted into a mask and back is truncated to the width of the field. -/
theorem shiftLeft_and_ushiftRight (k : Nat) : ((v <<< k) &&& mask) >>> k = v &&& (mask >>> k) := by
  ext i hi
  simp only [BitVec.getElem_and, BitVec.getElem_ushiftRight, BitVec.getLsbD_and, BitVec.getLsbD_shiftLeft]
  by_cases hk : k + i < 8
  · simp [hk, BitVec.getLsbD_eq_getElem hi]
  · simp [hk, BitVec.getLsbD_of_ge mask (k + i) (by omega)]

/-- R88: the last of two merges into one field wins. -/
theorem mergeByte_mergeByte_same :
    mergeByte (mergeByte old mask shift v) mask shift v' = mergeByte old mask shift v' := by
  change (mergeByte old mask shift v &&& ~~~mask) ||| _ = _
  rw [mergeByte_outside]
  rfl

/-- R88: merges into fields that share no bit commute. -/
theorem mergeByte_comm (h : mask &&& mask' = 0) :
    mergeByte (mergeByte old mask shift v) mask' shift' v' = mergeByte (mergeByte old mask' shift' v') mask shift v := by
  ext i hi
  have hdisj : (mask &&& mask')[i] = false := by simp [h]
  simp only [mergeByte, BitVec.getElem_and, BitVec.getElem_or, BitVec.getElem_not] at hdisj ⊢
  cases hm : mask[i] <;> cases hm' : mask'[i] <;> simp_all

end

/-! ### One frame -/

variable {n : Nat} (f : Vector Byte n) (s : FieldSpec n) {t : FieldSpec n} (v v' : Byte)

/-- R84: the result lies in `0 .. (mask >> shift)`. -/
theorem extract_le : (extract f s).toNat ≤ (s.mask >>> s.shift.val).toNat := by
  simp only [extract, BitVec.toNat_ushiftRight, BitVec.toNat_and, Nat.shiftRight_eq_div_pow]
  exact Nat.div_le_div_right Nat.and_le_right

/-- R88, round trip. -/
theorem extract_merge_self : extract (merge f s v) s = v &&& (s.mask >>> s.shift.val) := by
  rw [extract, merge_get_self, mergeByte_inside, shiftLeft_and_ushiftRight]

/-- R88, isolation. -/
theorem extract_merge_disjoint (h : s.disjoint t) : extract (merge f s v) t = extract f t := by
  have hbits := merge_outside f s v (i := t.byteIndex) (m := ~~~t.mask) fun e => by simpa using h e.symm
  rw [BitVec.not_not] at hbits
  rw [extract, hbits, extract]

/-- R88, last write wins. -/
theorem merge_merge_same : merge (merge f s v) s v' = merge f s v' := by
  simp [merge, mergeByte_mergeByte_same]

/-- R88, commutation. -/
theorem merge_comm (h : s.disjoint t) : merge (merge f s v) t v' = merge (merge f t v') s v := by
  obtain ⟨i, m, k⟩ := s
  obtain ⟨j, m', k'⟩ := t
  by_cases hij : i = j
  · subst hij
    simp [merge, mergeByte_comm (h := h rfl)]
  · have hval : i.val ≠ j.val := fun e => hij (Fin.ext e)
    simp [merge, hval, hval.symm, Vector.set_comm _ _ hval]

/-- R81 `TW3`, `TW4`: two entries of a table that passes its checks. -/
theorem isRun_and_disjoint_of_rows {s t : FieldSpec n} {rows : Vector (Option (FieldSpec n)) 16} (hrun : rowsAreRuns rows)
    (hdisj : rowsDisjoint rows) {i j : BitVec 4} (hij : i ≠ j) (hs : rows[i.toFin] = some s)
    (ht : rows[j.toFin] = some t) : s.isRun ∧ s.disjoint t := by
  have hne : i.toFin ≠ j.toFin := fun e => hij (BitVec.eq_of_toFin_eq e)
  exact ⟨hrun _ s hs, hdisj _ _ hne s hs t ht⟩

/-- Settles O15: EXTRACT is what R84 writes. -/
theorem extractStaysWithinField : Obligations.ExtractStaysWithinField :=
  fun _ f s => ⟨rfl, extract_le f s, fun _ => extract_congr s⟩

/-- Settles O16: one byte of the frame is merged, and the rest of the frame stays. -/
theorem mergeWritesOneField : Obligations.MergeWritesOneField := by
  intro n f s v _
  refine ⟨merge_get_self f s v, extract_merge_self f s v, ?_, fun i => merge_get_other f s v⟩
  rw [merge_get_self, mergeByte_outside]

/-- Settles O17: the laws of one frame, and R81's checks of the two tables. -/
theorem fieldLaws : Obligations.FieldLaws := by
  refine ⟨fun n f s v v1 v2 _ => ⟨extract_merge_self f s v, merge_merge_same f s v v, merge_merge_same f s v1 v2,
    fun i => merge_outside f s v fun hi => by simp [hi],
    fun t hdisj => ⟨extract_merge_disjoint f s v hdisj, merge_comm f s v1 v2 hdisj⟩⟩, ?_⟩
  rintro c i j ⟨⟨hrunR, hrunW⟩, ⟨hdisjR, hdisjW⟩, -⟩ hij
  exact ⟨fun s t => isRun_and_disjoint_of_rows hrunR hdisjR hij,
    fun s t => isRun_and_disjoint_of_rows hrunW hdisjW hij⟩

end Sys2Proof.Machine
end

section
/-! The field commands SETW and GETR (R86, R87), up to O18 to O22. -/

namespace Sys2Proof.Machine

variable {s t : State} {i : Instr} {fid : BitVec 4} {v : Byte}

/-- R86, where the word is accepted. -/
theorem exec_setw {spec : WriteFieldSpec} (hi : s.idle) (hs : s.cfg.table.wt.lookup fid = some spec) :
    exec (.setw fid v) s =
      .next (respond Response.done (clearSyncIfReserved fid (mergeField spec v s))) := by
  simp [exec, execSetw, whenFree_idle hi, hs]

/-- R87, where the word is accepted. -/
theorem exec_getr {spec : ReadFieldSpec} (hi : s.idle) (hs : s.cfg.table.rt.lookup fid = some spec) :
    exec (.getr fid) s = .next (respond ⟨.ok, .byte (extract s.rf spec)⟩ s) := by
  simp [exec, execGetr, whenFree_idle hi, hs]

/-- Settles O18: the accepted SETW, with `clearSyncIfReserved` as a condition on the id. -/
theorem setwMergesNamedField : Obligations.SetwMergesNamedField := by
  refine ⟨fun _ _ => rfl, fun s fid v spec hi hs => ?_⟩
  have hsync : (!isReservedWriteId fid && s.rsvSync) = if fid = 8 ∨ fid = 9 ∨ fid = 10 then false else s.rsvSync := by
    simp only [← isReservedWriteId_iff]
    cases isReservedWriteId fid <;> rfl
  rw [exec_setw hi hs, clearSyncIfReserved_eq, ← hsync]
  rfl

/-- Settles O19: the accepted GETR. -/
theorem getrReturnsNamedField : Obligations.GetrReturnsNamedField :=
  ⟨fun _ => rfl, fun _ _ _ hi hs => exec_getr hi hs⟩

/-- Settles O20: the one merge of an accepted SETW, and the field laws. -/
theorem setwLeavesOtherFieldsAlone : Obligations.SetwLeavesOtherFieldsAlone := by
  intro s t fid other v spec u hwf hi hs hu hne hstep
  rw [exec_setw hi hs, clearSyncIfReserved_eq] at hstep
  cases hstep
  obtain ⟨⟨-, hrun⟩, ⟨-, hdisj⟩, -⟩ := hwf
  obtain ⟨-, hdisj⟩ := isRun_and_disjoint_of_rows hrun hdisj hne.symm hs hu
  exact ⟨extract_merge_self s.wf spec v, extract_merge_disjoint s.wf spec v hdisj⟩

/-- R86, R87: the commands that touch no bus. -/
def isFieldCommand : Instr → Bool
  | .setw _ _ | .getr _ => true
  | .init | .resync | .rddev | .wrdev | .getmag => false

/-- R86, R87: a field command issues no request and ends no transfer. -/
theorem CommandEffect.pend_requests_of_field (h : CommandEffect s i t)
    (hi : isFieldCommand i = true) : t.pend = s.pend ∧ t.requests = s.requests := by
  cases h with
  | setw => simp [clearSyncIfReserved_eq]
  | notAccepted | busy | unassigned | getr => exact ⟨rfl, rfl⟩
  | init | resync | rddev | wrdev | unsynced | getmag | uninitialized => cases hi

/-- R143: a field command that is carried out raises no fault. -/
theorem CommandEffect.fault_of_field (h : CommandEffect s i t)
    (hi : isFieldCommand i = true) (hidle : s.idle) (hw : i.wellFormed s.cfg = true) :
    t.fault = s.fault ∧ t.faultCmd = s.faultCmd := by
  cases h with
  | setw => simp [clearSyncIfReserved_eq]
  | notAccepted | getr => exact ⟨rfl, rfl⟩
  | busy i hf hp => exact absurd hidle.2 hp
  | unassigned i hi' hw' => simp [hw] at hw'
  | init | resync | rddev | wrdev | unsynced | getmag | uninitialized => cases hi

/-- R87: GETR writes neither `WF` nor `RSV_SYNC`. -/
theorem CommandEffect.wf_rsvSync_of_getr (h : CommandEffect s (.getr fid) t) : t.wf = s.wf ∧ t.rsvSync = s.rsvSync := by
  cases h <;> exact ⟨rfl, rfl⟩

/-- R86: SETW writes the one byte of `WF` that its spec names. -/
theorem CommandEffect.wf_of_setw (h : CommandEffect s (.setw fid v) t) {i : Fin 4}
    (hi : ∀ spec, s.cfg.table.wt.lookup fid = some spec → i ≠ spec.byteIndex) : t.wf[i] = s.wf[i] := by
  cases h with
  | setw fid v spec hidle hs => simpa [clearSyncIfReserved_eq] using merge_get_other s.wf spec v (hi spec hs)
  | notAccepted | busy | unassigned => rfl

/-- R86: SETW leaves `RSV_SYNC` unless its field is a reserved one. -/
theorem CommandEffect.rsvSync_of_setw (h : CommandEffect s (.setw fid v) t) (hr : isReservedWriteId fid = false) :
    t.rsvSync = s.rsvSync := by
  rcases h.rsvSync with hsame | ⟨-, _, _, hsetw, hid⟩
  · exact hsame
  · cases hsetw
    simp [isReservedWriteId_iff.mpr hid] at hr

/-- Settles O21: what no command writes, what no field command writes, and what each of the two leaves. -/
theorem fieldCommandsFrame : Obligations.FieldCommandsFrame := by
  refine ⟨fun s t fid hexec => ?_, fun s t fid v hexec => ?_⟩
  · have heff := exec_inversion hexec
    obtain ⟨hrf, hphase, hlfc, haddr, hcfg, hev⟩ := heff.frame
    obtain ⟨hpend, hreq⟩ := heff.pend_requests_of_field rfl
    obtain ⟨hwf, hsync⟩ := heff.wf_rsvSync_of_getr
    exact ⟨fun i => by rw [hrf], fun i => by rw [hwf], hsync, hphase, hpend, hlfc, haddr, hcfg, hreq,
      hev, heff.fault_of_field rfl⟩
  · have heff := exec_inversion hexec
    obtain ⟨hrf, hphase, hlfc, haddr, hcfg, hev⟩ := heff.frame
    obtain ⟨hpend, hreq⟩ := heff.pend_requests_of_field rfl
    exact ⟨fun i => by rw [hrf], fun i => heff.wf_of_setw, heff.rsvSync_of_setw, hphase, hpend, hlfc, haddr, hcfg, hreq,
      hev, heff.fault_of_field rfl⟩

/-- Settles O22: a zero frame has only zero fields. -/
theorem getrOfZeroFrameReturnsZero : Obligations.GetrOfZeroFrameReturnsZero := by
  refine ⟨fun s fid hi hsome hzero => ?_, rfl⟩
  obtain ⟨spec, hs⟩ := Option.isSome_iff_exists.mp hsome
  rw [exec_getr hi hs, extract_of_zero spec (by simp [hzero])]
  rfl

end Sys2Proof.Machine
end

section
/-! The builder of mask tables (R81 to R83), up to O57 and O58: a table is built only where every raw entry passes its own
checks and gives the row of its id, and where the table passes TW3, TW4, TW6 and TW7. -/

namespace Sys2Proof

variable {n : Nat} {raw rt wt : Vector (Option RawSpec) 16}

/-- A `do` block of the builder succeeds where each of its parts does. -/
theorem bind_eq_ok {ε α β : Type} {x : Except ε α} {f : α → Except ε β} {b : β} :
    x >>= f = .ok b ↔ ∃ a, x = .ok a ∧ f a = .ok b := by
  cases x <;> simp [bind, Except.bind]

/-- An `Except` that answers nothing has failed. -/
theorem exists_error_of_ne_ok {ε α : Type} {x : Except ε α} (h : ∀ a, x ≠ .ok a) : ∃ e, x = .error e := by
  cases x with
  | error e => exact ⟨e, rfl⟩
  | ok a => exact absurd rfl (h a)

/-- R81 `TW1`, `TW2` and the width of a mask: what an entry that passes has met. -/
theorem RawSpec.bounds_of_check {r : RawSpec} {f : FieldSpec n} (h : r.check n = .ok f) :
    r.byteIndex < n ∧ r.shift < 8 ∧ r.mask < 256 := by
  unfold RawSpec.check at h
  split_ifs at h with hi hs hm
  exact ⟨hi, hs, hm⟩

/-- R81 `TW5`: a required entry is one that is there. -/
theorem RawSpec.required_eq_ok_iff {r : Option RawSpec} {f : FieldSpec n} :
    RawSpec.required n r = .ok f ↔ RawSpec.optional n r = .ok (some f) := by
  cases r with
  | none => simp [RawSpec.required, RawSpec.optional]
  | some r => cases h : r.check n <;> simp [RawSpec.required, RawSpec.optional, h, Except.map]

/-- R81: an entry that gives a row is in range. -/
theorem RawSpec.bounds_of_optional {entry : Option RawSpec} {row : Option (FieldSpec n)} {r : RawSpec}
    (h : RawSpec.optional n entry = .ok row) (hr : entry = some r) :
    r.byteIndex < n ∧ r.shift < 8 ∧ r.mask < 256 := by
  subst hr
  cases hc : r.check n with
  | error e => simp [RawSpec.optional, hc, Except.map] at h
  | ok f => exact bounds_of_check hc

/-- R81: an id without an entry is unassigned in the table. -/
theorem RawSpec.row_eq_none_of_optional {entry : Option RawSpec} {row : Option (FieldSpec n)}
    (h : RawSpec.optional n entry = .ok row) (hnone : entry = none) : row = none := by
  subst hnone
  exact (Except.ok.inj h).symm

/-- R81, R82: the rows of a read table that is built are its raw entries, checked, id by id. -/
theorem ReadTable.build_rows {t : ReadTable} (h : ReadTable.build raw = .ok t) (i : Fin 16) :
    RawSpec.optional 10 raw[i] = .ok t.rows[i] := by
  simp only [ReadTable.build, bind_eq_ok, RawSpec.required_eq_ok_iff, pure, Except.pure, Except.ok.injEq] at h
  obtain ⟨_, h0, _, h1, _, h2, _, h3, _, h4, _, h5, _, h6, _, h7, _, h8, _, h9, _, h10, _, h11, _, h12, _, h13, _, h14, _,
    h15, rfl⟩ := h
  fin_cases i <;> assumption

/-- R81, R82: the same of a write table. -/
theorem WriteTable.build_rows {t : WriteTable} (h : WriteTable.build raw = .ok t) (i : Fin 16) :
    RawSpec.optional 4 raw[i] = .ok t.rows[i] := by
  simp only [WriteTable.build, bind_eq_ok, RawSpec.required_eq_ok_iff, pure, Except.pure, Except.ok.injEq] at h
  obtain ⟨_, h0, _, h1, _, h2, _, h3, _, h4, _, h5, _, h6, _, h7, _, h8, _, h9, _, h10, _, h11, _, h12, _, h13, _, h14, _,
    h15, rfl⟩ := h
  fin_cases i <;> assumption

/-- R81: what the builder has checked of a table it hands out. -/
theorem MaskTable.checks_of_build {t : MaskTable} (h : MaskTable.build rt wt = .ok t) :
    (∀ i : Fin 16, RawSpec.optional 10 rt[i] = .ok t.rt.rows[i]) ∧
    (∀ i : Fin 16, RawSpec.optional 4 wt[i] = .ok t.wt.rows[i]) ∧ t.wf := by
  obtain ⟨r, hr, h⟩ := bind_eq_ok.mp h
  obtain ⟨w, hw, h⟩ := bind_eq_ok.mp h
  dsimp only at h
  split_ifs at h with h3 h4 h6 h7
  cases h
  exact ⟨ReadTable.build_rows hr, WriteTable.build_rows hw, h3, h4, h6, h7⟩

/-- R83: the required read rows. -/
theorem ReadTable.rows_ne_none (t : ReadTable) (i : Fin 14) : t.rows[i.val] ≠ none := by
  fin_cases i <;> nofun

/-- R83: the required write rows. -/
theorem WriteTable.rows_ne_none (t : WriteTable) {i : Nat} (hi : i ∈ [0, 1, 3, 4, 8, 9, 10]) (h : i < 16) :
    t.rows[i] ≠ none := by
  simp only [List.mem_cons, List.not_mem_nil, or_false] at hi
  rcases hi with rfl | rfl | rfl | rfl | rfl | rfl | rfl <;> nofun

/-- Settles O58: where the builder hands out a table, every entry is in range and every required row has one. -/
theorem tableBuilderRefusesFailingTables : Obligations.TableBuilderRefusesFailingTables := by
  intro rt wt
  refine ⟨fun t h => ?_, fun i r hr hbad => exists_error_of_ne_ok fun t h => ?_,
    fun i r hr hbad => exists_error_of_ne_ok fun t h => ?_, fun i hnone => exists_error_of_ne_ok fun t h => ?_,
    fun i hi h16 hnone => exists_error_of_ne_ok fun t h => ?_⟩
  all_goals obtain ⟨hrt, hwt, hwf⟩ := MaskTable.checks_of_build h
  · exact hwf
  · have hbounds := RawSpec.bounds_of_optional (hrt i) hr
    omega
  · have hbounds := RawSpec.bounds_of_optional (hwt i) hr
    omega
  · exact t.rt.rows_ne_none i (RawSpec.row_eq_none_of_optional (hrt ⟨i.val, by omega⟩) hnone)
  · exact t.wt.rows_ne_none hi h16 (RawSpec.row_eq_none_of_optional (hwt ⟨i, h16⟩) hnone)

/-- Settles O57: four closed facts about the default table, evaluated. -/
theorem defaultTablePassesChecks : Obligations.DefaultTablePassesChecks :=
  ⟨by decide, by decide, by decide, by decide⟩

end Sys2Proof
end

section
/-! The standing invariant (`State.Inv`), up to O54: one lemma for each shared operation, saying where it keeps the
invariant, and from these the commands, the answers and the step. -/

namespace Sys2Proof.Machine

variable {s t : State} {i : Instr} {n : Nat} {a : BusAnswer} {p : Pending} {fid : BitVec 4} {spec : WriteFieldSpec}

/-! ### Which operations keep the invariant -/

/-- R46, R103: no write is pending, so that `WF` and `RSV_SYNC` may be written. -/
def State.NoWritePending (s : State) : Prop := ∀ p, s.pend = some p → p.kind = .read

theorem noWritePending_of_idle (h : s.pend = none) : s.NoWritePending := fun p hp => by simp [h] at hp

theorem noWritePending_of_read (h : s.pend = some p) (hk : p.kind = .read) : s.NoWritePending := fun q hq => by
  cases h.symm.trans hq
  exact hk

/-- R46: a write, and only a write, holds a snapshot. -/
theorem Pending.wsnap_of_read (h : p.kind = .read) : p.wsnap = none := by
  cases p with
  | initWrite | wrdevWrite => cases h
  | _ => rfl

theorem State.Inv.withEvents (h : s.Inv) (es : List Event) : (s.withEvents es).Inv := { h with }

theorem State.Inv.raiseFault (h : s.Inv) {c : Cause} (hc : c ≠ .none) (w : CmdWord) : (raiseFault c w s).Inv :=
  { h with faultCmdZero := fun hf => absurd hf hc }

theorem State.Inv.respond (h : s.Inv) (r : Response) : (respond r s).Inv := { h with }

theorem State.Inv.release (h : s.Inv) : (release s).Inv :=
  { h with
    snapshotCurrent := nofun
    requestPending := nofun
    writeSynced := nofun
    readingReady := nofun }

theorem State.Inv.replaceReadFrame (h : s.Inv) (b : ReadFrame) : (replaceReadFrame b s).Inv := { h with }

theorem State.Inv.setSync (h : s.Inv) : (setSync s).Inv := { h with writeSynced := fun _ _ _ => rfl }

theorem State.Inv.setReady (h : s.Inv) : (setReady s).Inv := { h with readingReady := fun _ => rfl }

theorem State.Inv.clearSync (h : s.Inv) (hw : s.NoWritePending) : (clearSync s).Inv :=
  { h with writeSynced := fun p hp hk => by cases (hw p hp).symm.trans hk }

/-- R31, R46: a MERGE into an assigned field, while no write is pending. -/
theorem State.Inv.mergeField (h : s.Inv) (hw : s.NoWritePending) (hs : s.cfg.table.wt.lookup fid = some spec)
    (v : Byte) : (mergeField spec v s).Inv :=
  { h with
    uncoveredZero := fun i => (merge_uncovered hs s.wf v i).trans (h.uncoveredZero i)
    snapshotCurrent := fun p w hp hsnap => by
      rw [Pending.wsnap_of_read (hw p hp)] at hsnap
      cases hsnap }

/-- R24, R46, R103, R124: a transfer is issued with the current write frame, a write only with `RSV_SYNC` set and a
reading only in `READY`. -/
theorem State.Inv.issueTransfer (h : s.Inv) (hsnap : ∀ w, p.wsnap = some w → w = s.wf)
    (hsync : p.kind = .write → s.rsvSync = true) (hready : p = .getmagRead → s.phase = .ready) :
    (issueTransfer p s).Inv :=
  { h with
    snapshotCurrent := fun q w hq => by cases hq; exact hsnap w
    requestPending := fun q hq => by cases hq; simp
    writeSynced := fun q hq => by cases hq; exact hsync
    readingReady := fun hq => by cases hq; exact hready rfl }

theorem State.Inv.resetWith (h : s.Inv) (b : Byte) : (resetWith b s).Inv :=
  { h with
    lfcZero := rfl
    faultCmdZero := fun _ => rfl
    uncoveredZero := fun i => by simp
    snapshotCurrent := nofun
    requestPending := nofun
    writeSynced := nofun
    readingReady := nofun }

/-- R102: the echo merges into three named fields and sets `RSV_SYNC`. -/
theorem State.Inv.echo (h : s.Inv) (hw : s.NoWritePending) : (echo s).Inv := by
  obtain ⟨-, -, -, -, hres1, hres2, hres3⟩ := lookup_named s.cfg.table.wt
  exact (((h.mergeField hw hres1 _).mergeField hw hres2 _).mergeField hw hres3 _).setSync

/-- R100: INIT's configuration merges into four named fields. -/
theorem State.Inv.programConfig (h : s.Inv) (hw : s.NoWritePending) : (programConfig s).Inv := by
  obtain ⟨hparity, haddr, hfast, hlow, -⟩ := lookup_named s.cfg.table.wt
  exact (((h.mergeField hw haddr _).mergeField hw hparity _).mergeField hw hfast _).mergeField hw hlow _

/-- R86: cancelling the resync, while no write is pending. -/
theorem State.Inv.clearSyncIfReserved (h : s.Inv) (hw : s.NoWritePending) (fid : BitVec 4) :
    (clearSyncIfReserved fid s).Inv := by
  unfold Machine.clearSyncIfReserved
  split
  · exact h.clearSync hw
  · exact h

/-! ### Commands, answers and steps -/

/-- A command keeps the invariant: only an idle machine writes `WF` or issues a transfer. -/
theorem CommandEffect.inv (h : CommandEffect s i t) (hinv : s.Inv) : t.Inv := by
  cases h with
  | notAccepted => exact hinv
  | busy | unassigned | unsynced | uninitialized => exact hinv.raiseFault (by decide) _
  | init | resync | rddev => exact hinv.issueTransfer nofun nofun nofun
  | getmag hi hp => exact hinv.issueTransfer nofun nofun fun _ => hp
  | wrdev hi hr => exact hinv.issueTransfer (fun _ hw => (Option.some.inj hw).symm) (fun _ => hr) nofun
  | getr => exact hinv.respond _
  | setw fid v spec hi hs =>
    have hidle := noWritePending_of_idle hi.2
    exact ((hinv.mergeField hidle hs v).clearSyncIfReserved hidle fid).respond _

/-- An answer keeps the invariant: `WF` is written only at the end of a read, and `RSV_SYNC` cleared only at the end of a
write, which is no longer pending then. -/
theorem AnswerEffect.inv (h : AnswerEffect s n a t) (hinv : s.Inv) : t.Inv := by
  cases h with
  | dropped => exact hinv
  | failed => exact hinv.release.respond _
  | initRead b hf hp hn =>
    have hread := noWritePending_of_read hp rfl
    have hprog := ((hinv.replaceReadFrame b).echo hread).programConfig hread
    exact hprog.issueTransfer (fun _ hw => (Option.some.inj hw).symm) (fun _ => rfl) nofun
  | resync b hf hp hn =>
    exact ((hinv.replaceReadFrame b).echo (noWritePending_of_read hp rfl)).release.respond _
  | rddev b | getmag b => exact (hinv.replaceReadFrame b).release.respond _
  | initWrite => exact (hinv.release.clearSync (noWritePending_of_idle rfl)).setReady.respond _
  | wrdev => exact (hinv.release.clearSync (noWritePending_of_idle rfl)).respond _

/-- Settles O54: each part of a step keeps the invariant. -/
theorem stepKeepsInvariant : Obligations.StepKeepsInvariant := by
  intro s t hinv hstep
  cases step_inversion hstep with
  | wait => exact hinv
  | command w rest i t he hd hc => exact hc.inv (hinv.withEvents rest)
  | illegalNotAccepted w rest => exact hinv.withEvents rest
  | illegalBusy w rest | illegal w rest => exact (hinv.withEvents rest).raiseFault (by decide) w
  | answer n a rest t he ha => exact ha.inv (hinv.withEvents rest)
  | reset a rest => exact (hinv.withEvents rest).resetWith a

end Sys2Proof.Machine
end

section
/-! Sequences of merges into named write fields (R22, R88), up to O25 and O27: ECHO (R102) and INIT's configuration merges
(R100) are two such sequences, and what a sequence stores is said once. -/

namespace Sys2Proof.Machine

/-! ### The mask at the field's own width (R81) -/

section

variable {n m : Nat} {s : FieldSpec n} {r : FieldSpec m}

/-- R81 `TW3`: the mask moved down to bit 0 is `width` ones. -/
theorem mask_ushiftRight_toNat (h : s.isRun) : (s.mask >>> s.shift.val).toNat = 2 ^ s.width - 1 := by
  obtain ⟨-, hrun⟩ := h
  rw [BitVec.toNat_ushiftRight, hrun, Nat.shiftRight_eq_div_pow, Nat.mul_div_cancel _ (Nat.two_pow_pos _)]

/-- R81 `TW3`: a mask is not empty, so its field has a bit. -/
theorem width_ne_zero (h : s.isRun) : s.width ≠ 0 := by
  obtain ⟨hmask, hrun⟩ := h
  intro hw
  rw [hw] at hrun
  exact hmask (BitVec.eq_of_toNat_eq (by simpa using hrun))

/-- R100: the value 1 fits every field. -/
theorem one_and_mask (h : s.isRun) : 1 &&& (s.mask >>> s.shift.val) = 1 := by
  apply BitVec.eq_of_toNat_eq
  rw [BitVec.toNat_and, mask_ushiftRight_toNat h, Nat.and_two_pow_sub_one_eq_mod]
  exact Nat.mod_eq_of_lt (Nat.one_lt_two_pow (width_ne_zero h))

/-- R84: an extracted value fits the field it comes from. -/
theorem extract_and_mask (f : Vector Byte n) : extract f s &&& (s.mask >>> s.shift.val) = extract f s := by
  rw [extract, BitVec.ushiftRight_and_distrib, BitVec.and_assoc, BitVec.and_self]

/-- R102, R81 `TW7`: an extracted value fits every field of the same width. -/
theorem extract_and_mask_of_width_eq (f : Vector Byte n) (hs : s.isRun) (hr : r.isRun) (hw : s.width = r.width) :
    extract f s &&& (r.mask >>> r.shift.val) = extract f s := by
  have hmask : r.mask >>> r.shift.val = s.mask >>> s.shift.val :=
    BitVec.eq_of_toNat_eq (by rw [mask_ushiftRight_toNat hs, mask_ushiftRight_toNat hr, hw])
  rw [hmask, extract_and_mask]

end

/-! ### Sequences of merges -/

/-- R22: one MERGE into the write field that the table holds under an id. -/
structure FieldMerge (t : WriteTable) where
  fid : BitVec 4
  spec : WriteFieldSpec
  named : t.lookup fid = some spec
  value : Byte

variable {t : WriteTable} {ms : List (FieldMerge t)} {m : FieldMerge t}

/-- The write frame after the merges, the first of the list done first. -/
def mergeAll (w : WriteFrame) (ms : List (FieldMerge t)) : WriteFrame :=
  ms.foldl (fun w m => merge w m.spec m.value) w

@[simp] theorem mergeAll_nil (w : WriteFrame) : mergeAll w ([] : List (FieldMerge t)) = w := rfl

@[simp] theorem mergeAll_cons (w : WriteFrame) : mergeAll w (m :: ms) = mergeAll (merge w m.spec m.value) ms := rfl

/-- R81 `TW4`: merges into fields of different ids share no bit. -/
theorem FieldMerge.disjoint_lookup (hdisj : rowsDisjoint t.rows) {fid : BitVec 4} {u : WriteFieldSpec}
    (hu : t.lookup fid = some u) (hne : m.fid ≠ fid) : m.spec.disjoint u :=
  hdisj m.fid.toFin fid.toFin (fun e => hne (BitVec.eq_of_toFin_eq e)) m.spec m.named u hu

/-- R88, isolation: a field that no merge names keeps its value. -/
theorem extract_mergeAll_of_not_mem (hdisj : rowsDisjoint t.rows) {fid : BitVec 4} {u : WriteFieldSpec}
    (hu : t.lookup fid = some u) (hfid : fid ∉ ms.map FieldMerge.fid) (w : WriteFrame) :
    extract (mergeAll w ms) u = extract w u := by
  induction ms generalizing w with
  | nil => rfl
  | cons m ms ih =>
    rw [List.map_cons, List.mem_cons, not_or] at hfid
    obtain ⟨hm, hms⟩ := hfid
    rw [mergeAll_cons, ih hms, extract_merge_disjoint w m.spec m.value (m.disjoint_lookup hdisj hu (Ne.symm hm))]

/-- R88, round trip: with each field named once, each holds the value merged into it, truncated to its width. -/
theorem extract_mergeAll_of_mem (hdisj : rowsDisjoint t.rows) (hnodup : (ms.map FieldMerge.fid).Nodup) (hm : m ∈ ms)
    (w : WriteFrame) : extract (mergeAll w ms) m.spec = m.value &&& (m.spec.mask >>> m.spec.shift.val) := by
  induction ms generalizing w with
  | nil => cases hm
  | cons m' ms ih =>
    rw [List.map_cons, List.nodup_cons] at hnodup
    obtain ⟨hnot, hnodup⟩ := hnodup
    rw [mergeAll_cons]
    rcases List.mem_cons.mp hm with rfl | hms
    · rw [extract_mergeAll_of_not_mem hdisj m.named hnot, extract_merge_self]
    · exact ih hnodup hms _

/-- R88, commutation: with each field named once, the order of the merges is not observable. -/
theorem foldl_merge_eq_mergeAll_of_perm (hdisj : rowsDisjoint t.rows) (hnodup : (ms.map FieldMerge.fid).Nodup)
    {order : List (WriteFieldSpec × Byte)} (hperm : order.Perm (ms.map fun m => (m.spec, m.value))) (w : WriteFrame) :
    order.foldl (fun w p => merge w p.1 p.2) w = mergeAll w ms := by
  rw [← hperm.symm.foldl_eq' (f := fun w p => merge w p.1 p.2) ?comm w, List.foldl_map, mergeAll]
  intro p hp p' hp' w
  obtain ⟨m, hm, rfl⟩ := List.mem_map.mp hp
  obtain ⟨m', hm', rfl⟩ := List.mem_map.mp hp'
  by_cases hfid : m.fid = m'.fid
  · rw [List.inj_on_of_nodup_map hnodup hm hm' hfid]
  · exact merge_comm w m.spec m.value m'.value (m.disjoint_lookup hdisj m'.named hfid)

/-! ### ECHO and INIT as sequences of merges -/

/-- R102: the merges of ECHO, from the read frame. -/
def echoMerges (t : MaskTable) (rf : ReadFrame) : List (FieldMerge t.wt) :=
  [⟨8, t.wt.res1, rfl, extract rf t.rt.res1⟩, ⟨9, t.wt.res2, rfl, extract rf t.rt.res2⟩,
   ⟨10, t.wt.res3, rfl, extract rf t.rt.res3⟩]

/-- R100: the configuration merges of INIT. -/
def configMerges (c : Config) : List (FieldMerge c.table.wt) :=
  [⟨1, c.table.wt.addr, rfl, c.initAddr⟩, ⟨0, c.table.wt.parity, rfl, 1⟩, ⟨3, c.table.wt.fast, rfl, 1⟩,
   ⟨4, c.table.wt.lowpower, rfl, 1⟩]

theorem echoMerges_fids (t : MaskTable) (rf : ReadFrame) : (echoMerges t rf).map FieldMerge.fid = [8, 9, 10] := rfl

theorem configMerges_fids (c : Config) : (configMerges c).map FieldMerge.fid = [1, 0, 3, 4] := rfl

theorem echo_wf (s : State) : (echo s).wf = mergeAll s.wf (echoMerges s.cfg.table s.rf) := rfl

/-- R100: the write frame INIT sends, once its read has replaced the read frame. -/
theorem initReadDone_wf (s : State) :
    (initReadDone s).wf = mergeAll s.wf (echoMerges s.cfg.table s.rf ++ configMerges s.cfg) := rfl

/-- R102, R81 `TW7`: a reserved read field fits its write field exactly. -/
theorem reserved_fits {c : Config} (hwf : c.wf) (rf : ReadFrame) :
    ∀ m ∈ echoMerges c.table rf, m.value &&& (m.spec.mask >>> m.spec.shift.val) = m.value := by
  obtain ⟨⟨hrunR, hrunW⟩, -, -, hw1, hw2, hw3⟩ := hwf
  simp only [echoMerges, List.forall_mem_cons]
  exact ⟨extract_and_mask_of_width_eq rf (hrunR 11 _ rfl) (hrunW 8 _ rfl) hw1,
    extract_and_mask_of_width_eq rf (hrunR 12 _ rfl) (hrunW 9 _ rfl) hw2,
    extract_and_mask_of_width_eq rf (hrunR 13 _ rfl) (hrunW 10 _ rfl) hw3, nofun⟩

/-- Settles O27: ECHO's three merges name three fields, and each value fits its field. -/
theorem echoCopiesReservedFieldsExactly : Obligations.EchoCopiesReservedFieldsExactly := by
  intro s hwf
  have hfits := reserved_fits hwf s.rf
  obtain ⟨-, ⟨-, hdisj⟩, -⟩ := hwf
  have hnodup : ((echoMerges s.cfg.table s.rf).map FieldMerge.fid).Nodup := by
    rw [echoMerges_fids]
    decide
  have hecho : ∀ m ∈ echoMerges s.cfg.table s.rf, extract (echo s).wf m.spec = m.value := fun m hm =>
    (extract_mergeAll_of_mem hdisj hnodup hm s.wf).trans (hfits m hm)
  simp only [echoMerges, List.forall_mem_cons] at hecho
  obtain ⟨hres1, hres2, hres3, -⟩ := hecho
  refine ⟨rfl, rfl, hres1, hres2, hres3, fun fid u hfid hu => ?_, fun order hperm => ?_⟩
  · have hnot : fid ∉ (echoMerges s.cfg.table s.rf).map FieldMerge.fid := by
      rw [echoMerges_fids]
      simpa [isReservedWriteId, and_assoc] using hfid
    rw [echo_wf, extract_mergeAll_of_not_mem hdisj hu hnot]
  · rw [echo_wf, foldl_merge_eq_mergeAll_of_perm hdisj hnodup hperm]

/-- Settles O25: INIT's seven merges name seven fields. -/
theorem initWriteFramePostcondition : Obligations.InitWriteFramePostcondition := by
  intro s t b rest hwf hans hstep
  rw [step_answerNext hans] at hstep
  cases hstep
  have hfits := reserved_fits hwf b
  obtain ⟨⟨-, hrun⟩, ⟨-, hdisj⟩, -⟩ := hwf
  have hsent : (complete .initRead (.readOk b) (s.withEvents rest)).wf =
      mergeAll s.wf (echoMerges s.cfg.table b ++ configMerges s.cfg) :=
    initReadDone_wf (replaceReadFrame b (s.withEvents rest))
  have hfids : (echoMerges s.cfg.table b ++ configMerges s.cfg).map FieldMerge.fid = [8, 9, 10, 1, 0, 3, 4] := by
    rw [List.map_append, echoMerges_fids, configMerges_fids]
    rfl
  rw [hsent]
  have hstored := fun m hm => extract_mergeAll_of_mem (m := m) hdisj (by rw [hfids]; decide) hm s.wf
  obtain ⟨hecho, hconfig⟩ := List.forall_mem_append.mp hstored
  have hexact := fun m hm => (hecho m hm).trans (hfits m hm)
  simp only [echoMerges, configMerges, List.forall_mem_cons] at hexact hconfig
  obtain ⟨hres1, hres2, hres3, -⟩ := hexact
  obtain ⟨haddr, hparity, hfast, hlow, -⟩ := hconfig
  refine ⟨rfl, hparity.trans (one_and_mask (hrun 0 _ rfl)), hfast.trans (one_and_mask (hrun 3 _ rfl)),
    hlow.trans (one_and_mask (hrun 4 _ rfl)), haddr, hres1, hres2, hres3, fun fid u hfid hu => ?_⟩
  refine extract_mergeAll_of_not_mem hdisj hu ?_ s.wf
  rw [hfids]
  simp only [List.mem_cons, List.not_mem_nil] at hfid ⊢
  tauto

end Sys2Proof.Machine
end

section
/-! The bus commands (R100, R101, R104, R105, R124), up to O23, O24, O26, O28, O29 and O56: what each issues on an idle
machine, what its answer completes, and that a write goes out only with `RSV_SYNC` set. -/

namespace Sys2Proof.Machine

variable {s t : State} {i : Instr} {n : Nat} {a : BusAnswer} {p : Pending} {w : WriteFrame} {rest : List Event}

/-! ### The issue part -/

theorem exec_init (hi : s.idle) : exec .init s = .next (issueTransfer .initRead s) := by
  simp [exec, execInit, whenFree_idle hi, busRead]

theorem exec_resync (hi : s.idle) : exec .resync s = .next (issueTransfer .resyncRead s) := by
  simp [exec, execResync, whenFree_idle hi, busRead]

theorem exec_rddev (hi : s.idle) : exec .rddev s = .next (issueTransfer .rddevRead s) := by
  simp [exec, execRddev, whenFree_idle hi, busRead]

/-- R105, with a resync since the last successful write. -/
theorem exec_wrdev_synced (hi : s.idle) (hr : s.rsvSync = true) :
    exec .wrdev s = .next (issueTransfer (.wrdevWrite s.wf) s) := by
  simp [exec, execWrdev, whenFree_idle hi, hr, busWrite]

/-- R105, without one. -/
theorem exec_wrdev_unsynced (hi : s.idle) (hr : s.rsvSync = false) :
    exec .wrdev s = .next (raiseFault .unsyncedWrite (encode .wrdev) s) := by
  simp [exec, execWrdev, whenFree_idle hi, hr]

/-- R143, R144: a bus command issues its first transfer, or records a fault and its own word, or is not accepted. -/
theorem CommandEffect.issue_of_bus (h : CommandEffect s i t) (hbus : isFieldCommand i = false) :
    (t.fault = s.fault ∧ t.faultCmd = s.faultCmd ∧
      ∃ p, p.cmd = i ∧ p.stage = 0 ∧ t.pend = some p ∧ t.requests = s.requests ++ [p.request s.addr]) ∨
    (t.pend = s.pend ∧ t.requests = s.requests ∧ s.fault = .none ∧ t.fault ≠ .none ∧ t.faultCmd = encode i) ∨
    (s.fault ≠ .none ∧ t = s) := by
  cases h with
  | init | resync | rddev | wrdev | getmag => exact .inl ⟨rfl, rfl, _, rfl, rfl, rfl, rfl⟩
  | busy i hf => exact .inr (.inl ⟨rfl, rfl, hf, nofun, rfl⟩)
  | unassigned i hi | unsynced hi | uninitialized hi => exact .inr (.inl ⟨rfl, rfl, hi.1, nofun, rfl⟩)
  | notAccepted i hf => exact .inr (.inr ⟨hf, rfl⟩)
  | setw | getr => cases hbus

/-- R100, R101, R104, R105, R124: a bus command's issue part writes neither `WF` nor `RSV_SYNC` and answers nothing. -/
theorem CommandEffect.wf_rsvSync_responses_of_bus (h : CommandEffect s i t) (hbus : isFieldCommand i = false) :
    t.wf = s.wf ∧ t.rsvSync = s.rsvSync ∧ t.responses = s.responses := by
  cases h with
  | setw | getr => cases hbus
  | _ => exact ⟨rfl, rfl, rfl⟩

/-- Settles O23: what no command writes, what no bus command writes, and what a bus command issues. -/
theorem busCommandsIssueFrame : Obligations.BusCommandsIssueFrame := by
  intro i s t hi hexec
  have hbus : isFieldCommand i = false := by
    rcases hi with rfl | rfl | rfl | rfl | rfl <;> rfl
  have heff := exec_inversion hexec
  obtain ⟨hrf, hphase, hlfc, haddr, hcfg, hev⟩ := heff.frame
  obtain ⟨hwf, hsync, hresp⟩ := heff.wf_rsvSync_responses_of_bus hbus
  exact ⟨fun j => by rw [hrf], fun j => by rw [hwf], hphase, hsync, hlfc, haddr, hcfg, hev, hresp,
    heff.issue_of_bus hbus⟩

/-! ### The completion part -/

/-- R145: the step that takes `Err` for any pending transfer. -/
theorem step_err (h : s.answerNext p .err rest) :
    step s = .next { s with pend := none, events := rest, responses := s.responses ++ [⟨.busError, .empty⟩] } := by
  rw [step_answerNext h, complete_err]
  rfl

/-- Settles O24: the four parts of R100, each by the model's operation for it. -/
theorem initReadsEchoesConfiguresWrites : Obligations.InitReadsEchoesConfiguresWrites := by
  refine ⟨rfl, fun s hi => exec_init hi, fun s b rest echoed w hans hechoed hw => ?_,
    fun s w rest hans => step_answerNext hans, fun s p rest _ hans => step_err hans⟩
  subst hechoed hw
  exact step_answerNext hans

/-- Settles O26: the three parts of R101, each by the model's operation for it. -/
theorem resyncEchoesReservedFields : Obligations.ResyncEchoesReservedFields :=
  ⟨rfl, fun _ hi => exec_resync hi, fun _ _ _ hans => step_answerNext hans, fun _ _ hans => step_err hans⟩

/-- Settles O28: the three parts of R104, each by the model's operation for it. -/
theorem rddevReplacesReadFrame : Obligations.RddevReplacesReadFrame :=
  ⟨rfl, fun _ hi => exec_rddev hi, fun _ _ _ hans => step_answerNext hans, fun _ _ hans => step_err hans⟩

/-- Settles O29: the four parts of R105, each by the model's operation for it. -/
theorem wrdevSendsWriteFrameWhenSynced : Obligations.WrdevSendsWriteFrameWhenSynced :=
  ⟨rfl, fun _ hi hr => exec_wrdev_synced hi hr, fun _ hi hr => exec_wrdev_unsynced hi hr,
    fun _ _ _ hans => step_answerNext hans, fun _ _ _ hans => step_err hans⟩

/-! ### Writes and `RSV_SYNC` (R103) -/

/-- R105: of the commands only a synchronised WRDEV sends a write. -/
theorem CommandEffect.rsvSync_of_write {b : Byte} (h : CommandEffect s i t)
    (hreq : t.requests = s.requests ++ [.write b w]) : t.rsvSync = true := by
  cases h with
  | wrdev hi hr => exact hr
  | init | resync | rddev | getmag => simp [Pending.request, Pending.wsnap] at hreq
  | setw => simp [clearSyncIfReserved_eq] at hreq
  | notAccepted | busy | unassigned | getr | unsynced | uninitialized => simp at hreq

/-- R100: of the answers only INIT's read sends a write, after its echo. -/
theorem AnswerEffect.rsvSync_of_write {b : Byte} (h : AnswerEffect s n a t)
    (hreq : t.requests = s.requests ++ [.write b w]) : t.rsvSync = true := by
  cases h with
  | initRead => rfl
  | dropped | failed | resync | rddev | getmag | initWrite | wrdev =>
    exact absurd (List.self_eq_append_right.mp hreq) (List.cons_ne_nil _ _)

/-- R103: a step sends a write only with `RSV_SYNC` set. -/
theorem StepEffect.rsvSync_of_write {b : Byte} (h : StepEffect s t)
    (hreq : t.requests = s.requests ++ [.write b w]) : t.rsvSync = true := by
  cases h with
  | command w rest i t he hd hc => exact hc.rsvSync_of_write hreq
  | answer n a rest t he ha => exact ha.rsvSync_of_write hreq
  | wait | illegalNotAccepted | illegalBusy | illegal | reset => simp at hreq

/-- R46: the answer `Ok` to a pending write raises no fault, sends no request and leaves the events to come. -/
theorem complete_writeOk_frame (hk : p.kind = .write) (s : State) :
    (complete p .writeOk s).fault = s.fault ∧ (complete p .writeOk s).requests = s.requests ∧
      (complete p .writeOk s).events = s.events := by
  cases p with
  | initWrite | wrdevWrite => exact ⟨rfl, rfl, rfl⟩
  | initRead | resyncRead | rddevRead | getmagRead => cases hk

/-- R105: a WRDEV issued to an idle machine without a resync since the last successful write. -/
theorem step_wrdev_unsynced (hi : s.idle) (hr : s.rsvSync = false) (he : s.events = .command 0x6000 :: rest) :
    step s = .next (raiseFault .unsyncedWrite 0x6000 (s.withEvents rest)) := by
  have hidle : (s.withEvents rest).idle := hi
  have hword : decode s.cfg 0x6000 = .ok .wrdev := decode_encode (i := .wrdev) rfl
  rw [stepRunsDecodedCommand s 0x6000 .wrdev rest he hword]
  exact exec_wrdev_unsynced hidle hr

/-- Settles O56: the successful write leaves an idle machine with `RSV_SYNC` clear, where a WRDEV faults. -/
theorem everyWriteFollowsResync : Obligations.EveryWriteFollowsResync := by
  refine ⟨fun s t w hstep hreq => (step_inversion hstep).rsvSync_of_write hreq, fun s t p more hk hans hrun => ?_⟩
  have ⟨hnone, _⟩ := hans
  obtain ⟨u, hu, hrun⟩ := run_succ_iff.mp hrun
  obtain ⟨v, hv, hdone⟩ := run_succ_iff.mp hrun
  cases hdone
  obtain ⟨hwf, hsync, hpend⟩ := complete_writeOk hk (s.withEvents (.command 0x6000 :: more))
  obtain ⟨hfault, hreq, hev⟩ := complete_writeOk_frame hk (s.withEvents (.command 0x6000 :: more))
  rw [step_answerNext hans] at hu
  cases hu
  rw [step_wrdev_unsynced ⟨hfault.trans hnone, hpend⟩ hsync hev] at hv
  cases hv
  exact ⟨rfl, rfl, hreq, hwf⟩

end Sys2Proof.Machine
end

section
/-! RECONSTRUCT (R120, R121), up to O31 and O32: its pattern bit by bit, and its count as `16 * hi + lo`. -/

namespace Sys2Proof.Machine

variable {hi lo : Byte}

/-- R120: the three runs of bits, from the least significant upward. -/
theorem reconstruct_getLsbD (hlo : lo.toNat ≤ 0x0F) {i : Nat} (h16 : i < 16) :
    (reconstruct hi lo).getLsbD i =
      if i < 4 then lo.getLsbD i else if i < 12 then hi.getLsbD (i - 4) else hi.msb := by
  simp only [reconstruct, sext16, zext16, BitVec.getLsbD_or, BitVec.getLsbD_shiftLeft, BitVec.getLsbD_signExtend,
    BitVec.getLsbD_setWidth, h16]
  by_cases h4 : i < 4
  · simp [h4]
  · have hzero : lo.getLsbD i = false :=
      Nat.testBit_lt_two_pow (lt_of_lt_of_le (by omega) (Nat.pow_le_pow_right two_pos (not_lt.mp h4)))
    have hlt : i - 4 < 16 := by omega
    have hbyte : i - 4 < 8 ↔ i < 12 := by omega
    simp [h4, hzero, hlt, hbyte]

/-- R120: the 12-bit two's-complement reading. -/
theorem reconstruct_eq_signExtend (hlo : lo.toNat ≤ 0x0F) :
    reconstruct hi lo = (hi ++ lo.extractLsb' 0 4 : BitVec 12).signExtend 16 := by
  ext i h16
  simp only [← BitVec.getLsbD_eq_getElem, reconstruct_getLsbD hlo h16, BitVec.getLsbD_signExtend,
    BitVec.getLsbD_append, BitVec.msb_append, h16]
  by_cases h4 : i < 4
  · simp [h4, show i < 12 by omega]
  · simp [h4]

theorem reconstruct_toInt (hlo : lo.toNat ≤ 0x0F) : (reconstruct hi lo).toInt = 16 * hi.toInt + lo.toNat := by
  have hlow : (lo.extractLsb' 0 4).toNat = lo.toNat := by
    rw [BitVec.extractLsb'_toNat, Nat.shiftRight_zero, Nat.mod_eq_of_lt (by omega)]
  rw [reconstruct_eq_signExtend hlo, BitVec.toInt_signExtend_of_le (by decide), BitVec.toInt_append, hlow]
  rfl

theorem reconstruct_toInt_bounds (hlo : lo.toNat ≤ 0x0F) :
    -2048 ≤ (reconstruct hi lo).toInt ∧ (reconstruct hi lo).toInt ≤ 2047 := by
  rw [reconstruct_toInt hlo]
  have hge := BitVec.le_toInt hi
  have hlt := BitVec.toInt_lt (x := hi)
  omega

/-- Settles O31: each run of the result's bits is read off, bit by bit. -/
theorem reconstructReadsTwelveBits : Obligations.ReconstructReadsTwelveBits := by
  intro hi lo hlo
  refine ⟨rfl, reconstruct_eq_signExtend hlo, ?high, ?middle, ?low⟩
  all_goals
    ext i h16
    rw [BitVec.getElem_extractLsb', reconstruct_getLsbD hlo (by omega)]
  case high =>
    have hhigh : ¬ 12 + i < 4 ∧ ¬ 12 + i < 12 := by omega
    simp only [hhigh, if_false]
    cases hi.msb
    · simp
    · exact (BitVec.getElem_allOnes i h16).symm
  case middle =>
    have hmiddle : ¬ 4 + i < 4 ∧ 4 + i < 12 := by omega
    simp [hmiddle, h16]
  case low => simp [h16]

/-- R121: the high byte of a count is its quotient by 16, the low nibble the remainder. -/
theorem exists_reconstruct_toInt_eq {r : Int} (hge : -2048 ≤ r) (hle : r ≤ 2047) :
    ∃ hi lo : Byte, lo.toNat ≤ 0x0F ∧ (reconstruct hi lo).toInt = r := by
  have hhi : (BitVec.ofInt 8 (r / 16)).toInt = r / 16 :=
    BitVec.toInt_ofInt_eq_self (by decide) (by omega) (by omega)
  have hlo : (BitVec.ofNat 8 (r % 16).toNat).toNat = (r % 16).toNat := Nat.mod_eq_of_lt (by omega)
  have hbound : (BitVec.ofNat 8 (r % 16).toNat).toNat ≤ 0x0F := by omega
  exact ⟨_, _, hbound, by rw [reconstruct_toInt hbound, hhi, hlo]; omega⟩

theorem reconstruct_toInt_injective {hi' lo' : Byte} (hlo : lo.toNat ≤ 0x0F) (hlo' : lo'.toNat ≤ 0x0F)
    (h : (reconstruct hi lo).toInt = (reconstruct hi' lo').toInt) : hi = hi' ∧ lo = lo' := by
  rw [reconstruct_toInt hlo, reconstruct_toInt hlo'] at h
  exact ⟨BitVec.eq_of_toInt_eq (by omega), BitVec.eq_of_toNat_eq (by omega)⟩

/-- Settles O32: every count in range has a pair, and only one. -/
theorem reconstructIsBijection : Obligations.ReconstructIsBijection := by
  refine ⟨fun hi lo hlo => reconstruct_toInt_bounds hlo, fun r hge hle => ?_, by decide⟩
  obtain ⟨hi, lo, hlo, hr⟩ := exists_reconstruct_toInt_eq hge hle
  refine ⟨(hi, lo), ⟨hlo, hr⟩, fun ⟨hi', lo'⟩ ⟨hlo', hr'⟩ => ?_⟩
  obtain ⟨rfl, rfl⟩ := reconstruct_toInt_injective hlo' hlo (hr'.trans hr.symm)
  rfl

end Sys2Proof.Machine
end

section
/-! SCALE (R122, R123), up to O34 to O37: where a rounded magnitude lies, how near `K` is to 0.098, and that SCALE
answers the count's sign with the magnitude of the exact product rounded. -/

namespace Sys2Proof

variable {f : Fmt} {mag : Nat} {x : ℚ}

/-! ### Where a rounded magnitude lies -/

/-- A value of the format that does not exceed the rational does not exceed the rounded one. -/
theorem Fmt.IsRoundMag.le_of_magVal_le {a : Nat} (h : f.IsRoundMag mag x) (ha : f.magVal a ≤ x) : a ≤ mag := by
  by_contra hlt
  have hval : f.magVal mag < f.magVal a := f.magVal_strictMono (not_le.mp hlt)
  have hnear := (h a _ (abs_of_nonneg (f.magVal_nonneg a))).1
  rw [abs_of_nonpos (by linarith), abs_of_nonpos (by linarith)] at hnear
  linarith

/-- Rounding is monotone: with the order reversed, one of the two values would be nearer to the other rational. -/
theorem Fmt.IsRoundMag.le_of_lt {mag' : Nat} {y : ℚ} (h : f.IsRoundMag mag x) (h' : f.IsRoundMag mag' y)
    (hxy : x < y) : mag ≤ mag' := by
  by_contra hlt
  have hval : f.magVal mag' < f.magVal mag := f.magVal_strictMono (not_le.mp hlt)
  have hx := (h mag' _ (abs_of_nonneg (f.magVal_nonneg mag'))).1
  have hy := (h' mag _ (abs_of_nonneg (f.magVal_nonneg mag))).1
  nlinarith [sq_le_sq.mpr hx, sq_le_sq.mpr hy, mul_pos (sub_pos.mpr hval) (sub_pos.mpr hxy)]

/-- The unit in the last place is that of the binade in which the rational is rounded. -/
theorem Fmt.ulp_eq_unit (f : Fmt) (n d : Nat) : f.ulp n d = f.unit (f.binade n d) := by
  rw [Fmt.ulp, Rat.mkRat_eq_div, Fmt.unit, f.minExp_add_binade, Int.cast_natCast, scaleTwo_ratio, Nat.cast_one, one_mul]

theorem Fmt.lt_two_hidden_mul_ulp (f : Fmt) {n d : Nat} (hn : 0 < n) (hd : 0 < d) :
    (n / d : ℚ) < 2 * f.hidden * f.ulp n d := by
  rw [f.ulp_eq_unit]
  exact f.lt_binade_top hn hd

/-- A positive rational lies between two values of the format that are one unit in its last place apart. -/
theorem Fmt.exists_magVal_around (f : Fmt) {n d : Nat} (hn : 0 < n) (hd : 0 < d) :
    ∃ a, f.magVal a ≤ n / d ∧ n / d < f.magVal (a + 1) ∧ f.magVal (a + 1) = f.magVal a + f.ulp n d := by
  have htop := f.lt_binade_top hn hd
  have hbottom := f.binade_bottom_le hn hd
  rw [f.ulp_eq_unit]
  generalize f.binade n d = j at *
  have hu := f.unit_pos j
  obtain ⟨m, hle, hlt⟩ : ∃ m : Nat, (m : ℚ) * f.unit j ≤ n / d ∧ (n / d : ℚ) < (m + 1 : Nat) * f.unit j := by
    refine ⟨⌊(n / d / f.unit j : ℚ)⌋₊, ?_, ?_⟩
    · rw [← le_div_iff₀ hu]
      exact Nat.floor_le (by positivity)
    · rw [← div_lt_iff₀ hu]
      exact_mod_cast Nat.lt_floor_add_one _
  have hm : m < 2 * f.hidden := by
    exact_mod_cast lt_of_mul_lt_mul_right (hle.trans_lt htop) hu.le
  have hj : j = 0 ∨ f.hidden ≤ m := by
    refine or_iff_not_imp_left.mpr fun h0 => Nat.lt_succ_iff.mp ?_
    exact_mod_cast lt_of_mul_lt_mul_right ((hbottom h0).trans_lt hlt) hu.le
  refine ⟨j * f.hidden + m, ?_⟩
  rw [Nat.add_assoc, f.magVal_binade hm.le hj, f.magVal_binade hm (by omega)]
  exact ⟨hle, hlt, by push_cast; ring⟩

/-- What rounds a rational half a unit from `n / d` at most lies within a unit of `n / d`: the two values around `n / d`
are no nearer to that rational. -/
theorem Fmt.IsRoundMag.dist_le_ulp {n d : Nat} (h : f.IsRoundMag mag x) (hn : 0 < n) (hd : 0 < d)
    (hx : |x - n / d| ≤ f.ulp n d / 2) : |f.magVal mag - n / d| ≤ f.ulp n d := by
  obtain ⟨a, hle, hlt, hnext⟩ := f.exists_magVal_around hn hd
  have hbelow := (h a _ (abs_of_nonneg (f.magVal_nonneg a))).1
  have habove := (h (a + 1) _ (abs_of_nonneg (f.magVal_nonneg (a + 1)))).1
  obtain ⟨hx1, hx2⟩ := abs_le.mp hx
  refine abs_le.mpr ⟨?_, ?_⟩
  · by_contra hfar
    rw [abs_of_nonpos (by linarith : f.magVal mag - x ≤ 0), le_abs'] at hbelow
    rcases hbelow with hbelow | hbelow <;> linarith
  · by_contra hfar
    rw [abs_of_nonneg (by linarith : 0 ≤ f.magVal mag - x), le_abs'] at habove
    rcases habove with habove | habove <;> linarith

/-- Adding to the exponent field of a normal number multiplies it by a power of two. -/
theorem Fmt.magVal_add_binades (f : Fmt) {a : Nat} (ha : f.hidden ≤ a) (k : Nat) :
    f.magVal (a + k * f.hidden) = 2 ^ k * f.magVal a := by
  obtain ⟨j, m, rfl, hm, hj⟩ := f.exists_binade a
  have hnormal : f.hidden ≤ m := hj.elim (fun h0 => by simpa [h0] using ha) id
  rw [show j * f.hidden + m + k * f.hidden = (j + k) * f.hidden + m by ring, f.magVal_binade hm.le (.inr hnormal),
    f.magVal_binade hm.le hj, f.unit_add]
  ring

/-! ### Patterns and their negation -/

theorem Fmt.abs_pattern_value (f : Fmt) (neg : Bool) {mag : Nat} (h : mag < f.infMag) :
    |(f.pattern neg mag).value| = f.magVal mag := by
  rw [FmtVal.abs_value, f.pattern_fmt, f.pattern_mag neg h]

theorem Fmt.pattern_isNormal (f : Fmt) (neg : Bool) {mag : Nat} (h : mag < f.infMag) (hnormal : f.hidden ≤ mag) :
    (f.pattern neg mag).isNormal = true := by
  simp only [FmtVal.isNormal, FmtVal.isFinite, f.pattern_fmt, f.pattern_mag neg h, Bool.and_eq_true, decide_eq_true_iff]
  exact ⟨h, hnormal⟩

theorem Fmt.pattern_neg (f : Fmt) (neg : Bool) {mag : Nat} (h : mag < f.infMag) :
    (f.pattern neg mag).neg = f.pattern (!neg) mag := by
  rw [FmtVal.neg, f.pattern_fmt, f.pattern_sign, f.pattern_mag neg h]

theorem withSign_not (neg : Bool) (x : ℚ) : withSign (!neg) x = -withSign neg x := by
  cases neg <;> simp [withSign]

theorem FmtVal.value_neg {v : FmtVal} (h : v.isFinite = true) : v.neg.value = -v.value := by
  rw [FmtVal.neg, Fmt.pattern_value _ _ (of_decide_eq_true h), withSign_not, v.value_eq]

/-- Rounding treats both signs alike. -/
theorem rne_neg {n : Int} {d : Nat} (hn : n ≠ 0) (hmag : f.roundMag n.natAbs d < f.infMag) :
    rne f (-n) d = (rne f n d).neg := by
  have hsign : decide (-n < 0) = !decide (n < 0) := by
    rw [← decide_not]
    exact decide_eq_decide.mpr (by omega)
  rw [rne, rne, if_neg hn, if_neg (neg_ne_zero.mpr hn), Int.natAbs_neg, f.pattern_neg _ hmag, hsign]

end Sys2Proof

namespace Sys2Proof.Machine

variable {r : BitVec 16}

/-! ### The scale constant (R122) -/

/-- Settles O34: four closed facts about `K`, evaluated. -/
theorem scaleConstantIsRoundedOnce : Obligations.ScaleConstantIsRoundedOnce := ⟨rfl, rfl, rfl, rfl⟩

theorem scaleConst_num_pos (f : Fmt) : 0 < (scaleConst f).num := by cases f <;> decide

theorem scaleConst_den_pos (f : Fmt) : 0 < (scaleConst f).den := by cases f <;> decide

theorem hidden_le_scaleConst_mag (f : Fmt) : f.hidden ≤ (scaleConst f).mag := by cases f <;> decide

theorem scaleConst_value_eq_div (f : Fmt) : (scaleConst f).value = (scaleConst f).num / (scaleConst f).den :=
  Rat.mkRat_eq_div _ _

theorem scaleConst_value_pos (f : Fmt) : 0 < (scaleConst f).value := by
  have hnum := scaleConst_num_pos f
  have hden := scaleConst_den_pos f
  rw [scaleConst_value_eq_div]
  positivity

theorem scaleConst_value_eq_magVal (f : Fmt) : (scaleConst f).value = f.magVal (scaleConst f).mag := by
  have hfmt : (scaleConst f).fmt = f := by cases f <;> rfl
  rw [← abs_of_pos (scaleConst_value_pos f), FmtVal.abs_value, hfmt]

/-- 2048 times `K` lies eleven binades above `K`, far below the largest finite value. -/
theorem mul_scaleConst_le_max (f : Fmt) {n : Nat} (hn : n ≤ 2048) :
    n * (scaleConst f).value ≤ f.magVal (f.infMag - 1) := by
  have hn' : (n : ℚ) ≤ 2 ^ 11 := by exact_mod_cast hn
  have hmag : (scaleConst f).mag + 11 * f.hidden ≤ f.infMag - 1 := by cases f <;> decide
  calc n * (scaleConst f).value ≤ 2 ^ 11 * (scaleConst f).value :=
        mul_le_mul_of_nonneg_right hn' (scaleConst_value_pos f).le
    _ = f.magVal ((scaleConst f).mag + 11 * f.hidden) := by
        rw [f.magVal_add_binades (hidden_le_scaleConst_mag f), scaleConst_value_eq_magVal]
    _ ≤ f.magVal (f.infMag - 1) := f.magVal_strictMono.monotone hmag

/-- `K` is 0.098 up to one part in four times the weight of the hidden bit, half of what rounding alone would
promise. -/
theorem scaleConst_near (f : Fmt) : 4 * f.hidden * |(scaleConst f).value - 98 / 1000| ≤ 98 / 1000 := by
  obtain ⟨-, hval32, -, hval64⟩ := scaleConstantIsRoundedOnce
  cases f with
  | binary32 =>
    rw [hval32]
    norm_num [Fmt.hidden, Fmt.precision, Rat.mkRat_eq_div, abs_of_nonpos]
  | binary64 =>
    rw [hval64]
    norm_num [Fmt.hidden, Fmt.precision, Rat.mkRat_eq_div, abs_of_nonneg]

/-- So a product with `K` is within half a unit in the last place of the product with 0.098. -/
theorem mul_scaleConst_near (f : Fmt) {n : Nat} (hn : 0 < n) :
    |n * (scaleConst f).value - (98 * n : Nat) / (1000 : Nat)| ≤ f.ulp (98 * n) 1000 / 2 := by
  have hfactor : (n : ℚ) * (scaleConst f).value - (98 * n : Nat) / (1000 : Nat) =
      n * ((scaleConst f).value - 98 / 1000) := by push_cast; ring
  have hhidden : (0 : ℚ) < f.hidden := by exact_mod_cast f.hidden_pos
  have hnear := mul_le_mul_of_nonneg_left (scaleConst_near f) (Nat.cast_nonneg (α := ℚ) n)
  have htop := f.lt_two_hidden_mul_ulp (n := 98 * n) (d := 1000) (by omega) (by decide)
  push_cast at htop
  rw [hfactor, abs_mul, Nat.abs_cast]
  refine le_of_mul_le_mul_left ?_ (by positivity : (0 : ℚ) < 4 * f.hidden)
  linarith

/-! ### SCALE (R122, R123) -/

theorem mkRat_scale (f : Fmt) (r : BitVec 16) :
    mkRat (r.toInt * (scaleConst f).num) (scaleConst f).den = r.toInt * (scaleConst f).value := by
  rw [Rat.mkRat_eq_div, scaleConst_value_eq_div, Int.cast_mul, mul_div_assoc]

theorem abs_mkRat_scale (f : Fmt) (r : BitVec 16) :
    |mkRat (r.toInt * (scaleConst f).num) (scaleConst f).den| = r.toInt.natAbs * (scaleConst f).value := by
  rw [mkRat_scale, abs_mul, abs_of_pos (scaleConst_value_pos f), Nat.cast_natAbs, Int.cast_abs]

/-- R122, R9: SCALE has the sign of the count, and the magnitude of the exact product rounded. -/
theorem scale_eq_pattern (f : Fmt) (hr : r.toInt.natAbs ≤ 2048) :
    ∃ mag, mag < f.infMag ∧ scale f r = f.pattern (decide (r.toInt < 0)) mag ∧
      f.IsRoundMag mag (r.toInt.natAbs * (scaleConst f).value) := by
  have hsign : r.toInt * (scaleConst f).num < 0 ↔ r.toInt < 0 := by
    have hnum := scaleConst_num_pos f
    rw [mul_neg_iff]
    omega
  have hrne := rne_eq_pattern f (r.toInt * (scaleConst f).num) (scaleConst_den_pos f)
  rw [← abs_mkRat, abs_mkRat_scale] at hrne
  simp only [hsign] at hrne
  exact hrne (mul_scaleConst_le_max f hr)

theorem scale_zero (f : Fmt) : scale f 0 = f.pattern false 0 := if_pos (zero_mul _)

/-- Settles O35: O33 for the exact product, which is in range. -/
theorem scaleRoundsExactProduct : Obligations.ScaleRoundsExactProduct := by
  intro f r hge hle
  have hround := roundingIsNearestTiesToEven f (r.toInt * (scaleConst f).num) (scaleConst f).den (scaleConst_den_pos f)
  rw [abs_mkRat_scale, f.pattern_value false f.infMag_sub_one_lt, mkRat_scale] at hround
  exact hround (mul_scaleConst_le_max f (by omega))

theorem natAbs_toInt_pos (hr : r ≠ 0) : 0 < r.toInt.natAbs :=
  Int.natAbs_pos.mpr fun h => hr (BitVec.eq_of_toInt_eq h)

/-- R122, the first condition of `P_SCALE`, by pattern. -/
theorem scale_neg (f : Fmt) (hr : r ≠ 0) (hge : -2047 ≤ r.toInt) (hle : r.toInt ≤ 2047) :
    scale f (-r) = (scale f r).neg := by
  have hneg : (-r).toInt = -r.toInt := BitVec.toInt_neg_of_ne_intMin (by rintro rfl; revert hge; decide)
  have hne : r.toInt * (scaleConst f).num ≠ 0 :=
    mul_ne_zero (Int.natAbs_pos.mp (natAbs_toInt_pos hr)) (scaleConst_num_pos f).ne'
  have hmag := f.roundMag_isRoundMag (Int.natAbs_pos.mpr hne) (scaleConst_den_pos f)
  rw [← abs_mkRat, abs_mkRat_scale] at hmag
  obtain ⟨hlt, -⟩ := hmag (mul_scaleConst_le_max f (by omega))
  rw [scale, scale, hneg, neg_mul, rne_neg hne hlt]

/-- R122, the first condition of `P_SCALE`, by value: at 0 both sides are 0. -/
theorem scale_neg_value (f : Fmt) (hge : -2047 ≤ r.toInt) (hle : r.toInt ≤ 2047) :
    (scale f (-r)).value = -(scale f r).value := by
  rcases eq_or_ne r 0 with rfl | hr
  · have hzero : (scale f 0).value = 0 := by
      rw [scale_zero, f.pattern_value false (Nat.zero_lt_of_lt f.infMag_sub_one_lt), f.magVal_zero]
      rfl
    rw [neg_zero, hzero, neg_zero]
  · obtain ⟨-, hfinite, -⟩ := scaleRoundsExactProduct f r (by omega) hle
    rw [scale_neg f hr hge hle, FmtVal.value_neg hfinite]

/-- R122, the last condition of `P_SCALE`: the product with `K` is near the product with 0.098, and SCALE rounds it. -/
theorem scale_within_ulp (f : Fmt) (hr : r ≠ 0) (hge : -2048 ≤ r.toInt) (hle : r.toInt ≤ 2047) :
    |(scale f r).value - mkRat (98 * r.toInt) 1000| ≤ f.ulp (98 * r.toInt.natAbs) 1000 := by
  have hpos := natAbs_toInt_pos hr
  have hq : mkRat (98 * r.toInt) 1000 =
      withSign (decide (r.toInt < 0)) ((98 * r.toInt.natAbs : Nat) / (1000 : Nat)) := by
    rw [mkRat_eq_withSign, Int.natAbs_mul]
    congr 1
    exact decide_eq_decide.mpr (by omega)
  obtain ⟨mag, hlt, hscale, hnear⟩ := scale_eq_pattern f (r := r) (by omega)
  rw [hscale, f.pattern_value _ hlt, hq, ← withSign_sub, abs_withSign]
  exact hnear.dist_le_ulp (by omega) (by decide) (mul_scaleConst_near f hpos)

/-- Settles O36: the three conditions of `P_SCALE`, and the first one also by pattern. -/
theorem scaleSatisfiesPScale : Obligations.ScaleSatisfiesPScale := fun f =>
  ⟨fun _ => scale_neg_value f, fun _ => scale_neg f, scale_zero f, fun _ => scale_within_ulp f⟩

/-- R123: `K` is a normal value of the format and no greater than its product with a count other than 0. -/
theorem scale_isNormal_sign_ge (f : Fmt) (hr : r ≠ 0) (hge : -2048 ≤ r.toInt) (hle : r.toInt ≤ 2047) :
    (scale f r).isNormal = true ∧ ((scale f r).sign = true ↔ r.toInt < 0) ∧
      (scaleConst f).value ≤ |(scale f r).value| := by
  have hpos : (1 : ℚ) ≤ r.toInt.natAbs := by exact_mod_cast natAbs_toInt_pos hr
  obtain ⟨mag, hlt, hscale, hnear⟩ := scale_eq_pattern f (r := r) (by omega)
  have hmag : (scaleConst f).mag ≤ mag := by
    apply hnear.le_of_magVal_le
    rw [← scaleConst_value_eq_magVal]
    exact le_mul_of_one_le_left (scaleConst_value_pos f).le hpos
  rw [hscale, f.abs_pattern_value _ hlt, f.pattern_sign, decide_eq_true_iff, scaleConst_value_eq_magVal]
  exact ⟨f.pattern_isNormal _ hlt ((hidden_le_scaleConst_mag f).trans hmag), Iff.rfl,
    f.magVal_strictMono.monotone hmag⟩

/-- R123: SCALE's magnitude grows with the count's. -/
theorem abs_scale_le_of_lt (f : Fmt) {r' : BitVec 16} (hr' : r'.toInt.natAbs ≤ 2048)
    (hlt : r.toInt.natAbs < r'.toInt.natAbs) : |(scale f r).value| ≤ |(scale f r').value| := by
  obtain ⟨mag, hmag, hscale, hnear⟩ := scale_eq_pattern f (r := r) (by omega)
  obtain ⟨mag', hmag', hscale', hnear'⟩ := scale_eq_pattern f hr'
  rw [hscale, hscale', f.abs_pattern_value _ hmag, f.abs_pattern_value _ hmag']
  have hproduct : (r.toInt.natAbs : ℚ) * (scaleConst f).value < r'.toInt.natAbs * (scaleConst f).value :=
    mul_lt_mul_of_pos_right (by exact_mod_cast hlt) (scaleConst_value_pos f)
  exact f.magVal_strictMono.monotone (hnear.le_of_lt hnear' hproduct)

/-- Settles O37: -2048 is the only count of its magnitude, and every other count's is smaller. -/
theorem scaleResultsAreZeroOrNormal : Obligations.ScaleResultsAreZeroOrNormal := by
  refine ⟨fun f r hge hle => ⟨fun h => h ▸ scale_zero f, fun hr => ?_⟩, by decide⟩
  obtain ⟨hnormal, hsign, hlower⟩ := scale_isNormal_sign_ge f hr hge hle
  refine ⟨hnormal, hsign, hlower, ?_⟩
  rcases eq_or_ne r.toInt (-2048) with h | h
  · obtain rfl : r = -2048 := BitVec.eq_of_toInt_eq h
    exact le_rfl
  · have hbottom : (-2048 : BitVec 16).toInt.natAbs = 2048 := by decide
    exact abs_scale_le_of_lt f hbottom.le (by omega)

end Sys2Proof.Machine
end

section
/-! GETMAG and its readings (R124, R125), up to O38, O39 and O40: what it issues and answers, that a reading is made of
the six axis fields alone, and what TW3 and TW6 say of the two fields of an axis. -/

namespace Sys2Proof.Machine

variable {s t : State} {b b' : ReadFrame} {rest : List Event} {c : Config}

/-! ### The command -/

/-- R124, once INIT has completed `OK`. -/
theorem exec_getmag_ready (hi : s.idle) (hp : s.phase = .ready) :
    exec .getmag s = .next (issueTransfer .getmagRead s) := by
  simp [exec, execGetmag, whenFree_idle hi, hp, busRead]

/-- R124, before that. -/
theorem exec_getmag_uninit (hi : s.idle) (hp : s.phase = .uninit) :
    exec .getmag s = .next (raiseFault .notInitialized (encode .getmag) s) := by
  simp [exec, execGetmag, whenFree_idle hi, hp]

/-- Settles O38: the four parts of R124, each by the model's operation for it. -/
theorem getmagConvertsFrameJustRead : Obligations.GetmagConvertsFrameJustRead :=
  ⟨rfl, fun _ hi hp => exec_getmag_ready hi hp, fun _ hi hp => exec_getmag_uninit hi hp,
    fun _ _ _ hans => step_answerNext hans, fun _ _ hans => step_err hans⟩

/-! ### The reading of a frame -/

/-- R124: the step that completes a GETMAG on `Ok(b)` sends the reading of `b`. -/
theorem responses_of_getmag (hans : s.answerNext .getmagRead (.readOk b) rest) (hstep : step s = .next t) :
    t.responses = s.responses ++ [⟨.ok, magnetVals s.cfg b⟩] := by
  rw [step_answerNext hans] at hstep
  cases hstep
  rfl

/-- R124: the six axis fields, in the order x, y, z. -/
def axisFields (t : ReadTable) : List ReadFieldSpec := [t.bxH, t.bxL, t.byH, t.byL, t.bzH, t.bzL]

theorem magnetVals_congr (h : ∀ spec ∈ axisFields c.table.rt, extract b spec = extract b' spec) :
    magnetVals c b = magnetVals c b' := by
  simp only [axisFields, List.forall_mem_cons] at h
  obtain ⟨hxH, hxL, hyH, hyL, hzH, hzL, -⟩ := h
  simp only [magnetVals, axisValue, hxH, hxL, hyH, hyL, hzH, hzL]

/-- Settles O39: both machines send the reading of their own frame, and the two readings are one. -/
theorem readingDependsOnlyOnAxisFields : Obligations.ReadingDependsOnlyOnAxisFields := by
  intro s u t t' b b' rest rest' hcfg hs hu hfields ht ht'
  rw [responses_of_getmag hs ht, responses_of_getmag hu ht', ← hcfg, magnetVals_congr hfields]
  exact ⟨by simp only [List.getLast?_concat], by simp⟩

/-! ### Readings under a well-formed table -/

variable {hi lo : ReadFieldSpec}

/-- R81 `TW3`, `TW6`: the fields of an axis are a whole high byte and a low nibble. -/
def IsAxis (hi lo : ReadFieldSpec) : Prop := hi.isRun ∧ hi.width = 8 ∧ lo.isRun ∧ lo.width = 4

theorem isAxis_of_wf (hwf : c.wf) :
    IsAxis c.table.rt.bxH c.table.rt.bxL ∧ IsAxis c.table.rt.byH c.table.rt.byL ∧
      IsAxis c.table.rt.bzH c.table.rt.bzL := by
  obtain ⟨⟨hrun, -⟩, -, ⟨hxH, hyH, hzH, hxL, hyL, hzL⟩, -⟩ := hwf
  exact ⟨⟨hrun 0 _ rfl, hxH, hrun 1 _ rfl, hxL⟩, ⟨hrun 2 _ rfl, hyH, hrun 3 _ rfl, hyL⟩,
    ⟨hrun 4 _ rfl, hzH, hrun 5 _ rfl, hzL⟩⟩

theorem axisValue_zero (f : Fmt) (hi lo : ReadFieldSpec) :
    axisValue f (Vector.replicate 10 0) hi lo = f.pattern false 0 := by
  rw [axisValue, extract_of_zero hi (by simp), extract_of_zero lo (by simp)]
  exact scale_zero f

/-- R84: every bit of every field of an all-0xFF frame is set. -/
theorem extract_replicate_ones (spec : ReadFieldSpec) :
    extract (Vector.replicate 10 0xFF) spec = spec.mask >>> spec.shift.val := by
  have hones : (Vector.replicate 10 (0xFF : Byte))[spec.byteIndex] = BitVec.allOnes 8 := Vector.getElem_replicate _
  rw [extract, hones, BitVec.allOnes_and]

theorem axisValue_ones (f : Fmt) (h : IsAxis hi lo) :
    axisValue f (Vector.replicate 10 0xFF) hi lo = scale f (-1) := by
  obtain ⟨hrunHi, hwidthHi, hrunLo, hwidthLo⟩ := h
  have hhi : hi.mask >>> hi.shift.val = 0xFF :=
    BitVec.eq_of_toNat_eq (by rw [mask_ushiftRight_toNat hrunHi, hwidthHi]; rfl)
  have hlo : lo.mask >>> lo.shift.val = 0x0F :=
    BitVec.eq_of_toNat_eq (by rw [mask_ushiftRight_toNat hrunLo, hwidthLo]; rfl)
  have hcount : reconstruct 0xFF 0x0F = -1 := by decide
  rw [axisValue, extract_replicate_ones, extract_replicate_ones, hhi, hlo, hcount]

/-- R121: the count of an axis of any frame. -/
theorem axis_count_bounds (b : ReadFrame) (h : IsAxis hi lo) :
    -2048 ≤ (reconstruct (extract b hi) (extract b lo)).toInt ∧
      (reconstruct (extract b hi) (extract b lo)).toInt ≤ 2047 := by
  obtain ⟨-, -, hrunLo, hwidthLo⟩ := h
  have hlo := extract_le b lo
  rw [mask_ushiftRight_toNat hrunLo, hwidthLo] at hlo
  exact reconstruct_toInt_bounds hlo

/-- Settles O40: each clause for the three axes, one by one. -/
theorem readingsOfUniformFrames : Obligations.ReadingsOfUniformFrames := by
  intro c hwf
  obtain ⟨hx, hy, hz⟩ := isAxis_of_wf hwf
  refine ⟨?zero, ?ones, fun b => ⟨_, _, _, rfl, ?range⟩⟩
  case zero => simp only [magnetVals, axisValue_zero]
  case ones => rw [magnetVals, axisValue_ones _ hx, axisValue_ones _ hy, axisValue_ones _ hz]
  case range =>
    simp only [List.forall_mem_cons]
    exact ⟨axis_count_bounds b hx, axis_count_bounds b hy, axis_count_bounds b hz, nofun⟩

end Sys2Proof.Machine
end

section
/-! Acceptance, faults and bus errors (R140 to R146), up to O10 to O14, O30 and O55: every meaning begins with the checks
for faulted and busy, an accepted command raises no fault, a fault writes two registers, and a transfer whose answer never
comes is left alone by every event but a reset. -/

namespace Sys2Proof.Machine

variable {s t : State} {i : Instr} {n : Nat} {a : BusAnswer} {w : CmdWord} {rest : List Event}

/-! ### Checks 1 and 2 (R144) -/

/-- Log 14: a meaning takes checks 1 and 2 for its own word. -/
theorem exec_eq_whenFree (i : Instr) (s : State) : ∃ k, exec i s = .next (whenFree (encode i) k s) := by
  cases i with
  | init | resync | setw | getr | rddev | wrdev | getmag => exact ⟨_, rfl⟩

theorem exec_faulted (i : Instr) (hf : s.fault ≠ .none) : exec i s = .next s := by
  obtain ⟨k, hk⟩ := exec_eq_whenFree i s
  rw [hk, whenFree_faulted hf]

theorem exec_busy (i : Instr) (hf : s.fault = .none) (hp : s.pend ≠ none) :
    exec i s = .next (raiseFault .commandWhileBusy (encode i) s) := by
  obtain ⟨k, hk⟩ := exec_eq_whenFree i s
  rw [hk, whenFree_busy hf hp]

/-- R66: of the commands only SETW and GETR name a field, and an unassigned one makes them illegal. -/
theorem exec_unassigned (hi : s.idle) (hw : i.wellFormed s.cfg = false) :
    exec i s = .next (raiseFault .illegalCommand (encode i) s) := by
  cases i with
  | setw fid v =>
    have hnone : s.cfg.table.wt.lookup fid = none := by simpa [Instr.wellFormed] using hw
    simp [exec, execSetw, whenFree_idle hi, hnone]
  | getr fid =>
    have hnone : s.cfg.table.rt.lookup fid = none := by simpa [Instr.wellFormed] using hw
    simp [exec, execGetr, whenFree_idle hi, hnone]
  | init | resync | rddev | wrdev | getmag => cases hw

/-- Settles O11: checks 1 and 2 stand in every meaning, and the third in the two that name a field. -/
theorem unacceptedCommandHasNoEffect : Obligations.UnacceptedCommandHasNoEffect :=
  fun i _ => ⟨exec_faulted i, exec_busy i, exec_unassigned⟩

/-- R144: checks 1 and 2 come first for every word, since a legal word is the encoding of its command. -/
theorem issueWord_eq_whenFree (w : CmdWord) (s : State) : ∃ k, issueWord w s = .next (whenFree w k s) := by
  rcases issueWord_cases w s with ⟨i, hd, h⟩ | ⟨e, -, h⟩
  · obtain ⟨rfl, -⟩ := encode_eq_of_decode hd
    rw [h]
    exact exec_eq_whenFree i s
  · exact ⟨_, h⟩

theorem step_command_faulted (he : s.events = .command w :: rest) (hf : s.fault ≠ .none) :
    step s = .next (s.withEvents rest) := by
  obtain ⟨k, hk⟩ := issueWord_eq_whenFree w (s.withEvents rest)
  rw [step_command he, hk, whenFree_faulted (s := s.withEvents rest) hf]

theorem step_command_busy (he : s.events = .command w :: rest) (hf : s.fault = .none) (hp : s.pend ≠ none) :
    step s = .next (raiseFault .commandWhileBusy w (s.withEvents rest)) := by
  obtain ⟨k, hk⟩ := issueWord_eq_whenFree w (s.withEvents rest)
  rw [step_command he, hk, whenFree_busy (s := s.withEvents rest) hf hp]

/-! ### The order of the checks (R144) -/

/-- R144: on an idle machine a well-formed command whose precondition holds raises no fault. -/
theorem CommandEffect.fault_of_accepted (h : CommandEffect s i t) (hi : s.idle) (hw : i.wellFormed s.cfg = true)
    (hmag : ¬ (i = .getmag ∧ s.phase = .uninit)) (hsync : ¬ (i = .wrdev ∧ s.rsvSync = false)) :
    t.fault = .none ∧ t.faultCmd = s.faultCmd := by
  cases h with
  | init | resync | getr | rddev | wrdev | getmag => exact ⟨hi.1, rfl⟩
  | setw => simp [clearSyncIfReserved_eq, hi.1]
  | notAccepted i hf => exact absurd hi.1 hf
  | busy i hf hp => exact absurd hi.2 hp
  | unassigned i hi' hw' => simp [hw] at hw'
  | unsynced hi' hr => exact absurd ⟨rfl, hr⟩ hsync
  | uninitialized hi' hp => exact absurd ⟨rfl, hp⟩ hmag

/-- R141: a step that takes a word sends nothing, or a response with status `OK`. -/
theorem StepEffect.responses_of_command (h : StepEffect s t) (he : s.events = .command w :: rest) :
    t.responses = s.responses ∨ ∃ d, t.responses = s.responses ++ [⟨.ok, d⟩] := by
  cases h with
  | command w rest i t he hd hc =>
    refine hc.responses.imp_right fun ⟨_, r, hsent, hr⟩ => ?_
    rcases hr with ⟨d, fid, rfl, -⟩ | ⟨fid, v, rfl, -⟩ <;> exact ⟨_, hsent⟩
  | answer n a rest t he' | reset a rest he' => cases he'.symm.trans he
  | wait | illegalNotAccepted | illegalBusy | illegal => exact .inl rfl

/-- Settles O10: one lemma for each check, in R144's order. -/
theorem acceptanceOrderPicksOneCause : Obligations.AcceptanceOrderPicksOneCause := by
  intro s w rest he
  refine ⟨step_command_faulted he, step_command_busy he, ?illegal, ?uninit, ?unsynced, ?run,
    fun t hstep => (step_inversion hstep).responses_of_command he⟩
  case illegal =>
    rintro hi ⟨e, hd⟩
    obtain ⟨-, hillegal, -⟩ := illegalWordsFaultWithNoOtherEffect
    exact hillegal s w e rest hi he hd
  case uninit =>
    intro hi hd hp
    obtain ⟨rfl, -⟩ := encode_eq_of_decode hd
    exact (stepRunsDecodedCommand s _ _ rest he hd).trans (exec_getmag_uninit (s := s.withEvents rest) hi hp)
  case unsynced =>
    intro hi hd hr
    obtain ⟨rfl, -⟩ := encode_eq_of_decode hd
    exact (stepRunsDecodedCommand s _ _ rest he hd).trans (exec_wrdev_unsynced (s := s.withEvents rest) hi hr)
  case run =>
    intro i hi hd hmag hsync
    obtain ⟨-, hw⟩ := encode_eq_of_decode hd
    have hexec := stepRunsDecodedCommand s w i rest he hd
    obtain ⟨t, ht, heff⟩ := exec_effect i (s.withEvents rest)
    exact ⟨hexec, t, hexec.trans ht, heff.fault_of_accepted hi hw hmag hsync⟩

/-! ### Fault entry and the faulted state (R142, R143, R146) -/

/-- Settles O12: the codes, read off their tables. -/
theorem causeAndStatusCodes : Obligations.CauseAndStatusCodes := ⟨rfl, rfl⟩

/-- R143: a command that raises a fault writes `FAULT` and its own word, and nothing else. -/
theorem CommandEffect.eq_raiseFault (h : CommandEffect s i t) (hs : s.fault = .none) (ht : t.fault ≠ .none) :
    t = raiseFault t.fault (encode i) s := by
  cases h with
  | busy | unassigned | unsynced | uninitialized => rfl
  | notAccepted | init | resync | getr | rddev | wrdev | getmag => exact absurd hs ht
  | setw => simp [clearSyncIfReserved_eq, hs] at ht

/-- Settles O13: of a step's parts only a command and an illegal word raise a fault. -/
theorem faultEntryIsPrecise : Obligations.FaultEntryIsPrecise := by
  intro s t hstep hs ht
  cases step_inversion hstep with
  | command w rest i t he hd hc =>
    obtain ⟨rfl, -⟩ := encode_eq_of_decode hd
    exact ⟨_, rest, he, hc.eq_raiseFault hs ht⟩
  | illegalBusy w rest e he | illegal w rest e he => exact ⟨w, rest, he, rfl⟩
  | answer n a rest t he ha =>
    obtain ⟨hfault, -⟩ := ha.frame
    exact absurd (hfault.trans hs) ht
  | reset => exact absurd rfl ht
  | wait | illegalNotAccepted => exact absurd hs ht

/-- R143: the faulted machine drops every bus answer. -/
theorem busAnswer_faulted (hf : s.fault ≠ .none) : busAnswer n a s = s := by simp [busAnswer, hf]

/-- Settles O14, by cases on the event at the head. -/
theorem onlyResetLeavesFaultedState : Obligations.OnlyResetLeavesFaultedState := by
  intro s t hf hstep
  cases he : s.events with
  | nil =>
    rw [step_wait he] at hstep
    cases hstep
    exact .inr (by rw [List.tail_nil, ← he])
  | cons e rest =>
    cases e with
    | command w =>
      rw [step_command_faulted he hf] at hstep
      cases hstep
      exact .inr rfl
    | answer n a =>
      rw [step_answer he, busAnswer_faulted (s := s.withEvents rest) hf] at hstep
      cases hstep
      exact .inr rfl
    | reset b =>
      rw [step_reset he] at hstep
      cases hstep
      exact .inl ⟨b, rest, rfl, rfl⟩

/-! ### Bus errors (R145) -/

/-- Settles O30: the `Err` step of any transfer, and for INIT the two answers one after the other. -/
theorem busErrorEffects : Obligations.BusErrorEffects := by
  refine ⟨fun s p rest hans => step_err hans, fun s t b n rest hf hp hn he hrun => ?_⟩
  obtain ⟨u, hu, hrun⟩ := run_succ_iff.mp hrun
  obtain ⟨v, hv, hdone⟩ := run_succ_iff.mp hrun
  cases hdone
  have hread : s.answerNext .initRead (.readOk b) (.answer (n + 1) .err :: rest) := ⟨hf, hp, n, hn, he⟩
  rw [step_answerNext hread] at hu
  cases hu
  set u := complete .initRead (.readOk b) (s.withEvents (.answer (n + 1) .err :: rest))
  have hreq : u.requests = s.requests ++ [.write s.addr u.wf] := rfl
  have hwrite : u.answerNext (.initWrite u.wf) .err rest := ⟨hf, rfl, n + 1, by simp [hreq, hn], rfl⟩
  rw [step_err hwrite] at hv
  cases hv
  exact ⟨rfl, rfl, rfl, rfl, rfl, rfl, hreq, rfl⟩

/-! ### A transfer that is never answered (R140) -/

/-- R140: what `State.stuck` says beside the absence of a fault, which a command issued meanwhile ends. -/
def State.Stalled (s : State) : Prop :=
  s.pend.isSome ∧ ∀ e ∈ s.events, e.isReset = false ∧ ∀ n a, e = .answer n a → n + 1 ≠ s.requests.length

theorem State.stuck.stalled (h : s.stuck) : s.Stalled := h.2

theorem State.Stalled.tail_raiseFault (h : s.Stalled) (c : Cause) (w : CmdWord) :
    (raiseFault c w (s.withEvents s.events.tail)).Stalled :=
  ⟨h.1, fun e he => h.2 e (List.mem_of_mem_tail he)⟩

/-- R140, R144: with its transfer unanswered a step takes an event and writes at most the two fault registers. -/
theorem State.Stalled.step_eq (h : s.Stalled) :
    ∃ c w, step s = .next (raiseFault c w (s.withEvents s.events.tail)) := by
  obtain ⟨hp, hev⟩ := h
  cases he : s.events with
  | nil => exact ⟨s.fault, s.faultCmd, (step_wait he).trans (by rw [List.tail_nil, ← he]; rfl)⟩
  | cons e rest =>
    obtain ⟨hreset, hother⟩ := hev e (by simp [he])
    cases e with
    | command w =>
      by_cases hf : s.fault = .none
      · exact ⟨_, w, step_command_busy he hf (Option.isSome_iff_ne_none.mp hp)⟩
      · exact ⟨s.fault, s.faultCmd, step_command_faulted he hf⟩
    | answer n a =>
      rcases busAnswer_cases n a (s.withEvents rest) with hdrop | ⟨p, -, -, hn, -⟩
      · exact ⟨s.fault, s.faultCmd, (step_answer he).trans (congrArg _ hdrop)⟩
      · exact absurd hn (hother n a rfl)
    | reset b => cases hreset

/-- R140: after any number of such steps, by induction on them. -/
theorem State.Stalled.run_eq (k : Nat) (h : s.Stalled) (hrun : Host.Core.run core k s = .next t) :
    ∃ c w es, t = raiseFault c w (s.withEvents es) := by
  induction k generalizing s with
  | zero =>
    cases hrun
    exact ⟨t.fault, t.faultCmd, t.events, rfl⟩
  | succ k ih =>
    obtain ⟨u, hstep, hrun⟩ := run_succ_iff.mp hrun
    obtain ⟨c, w, hnext⟩ := h.step_eq
    rw [hnext] at hstep
    cases hstep
    obtain ⟨c', w', es, rfl⟩ := ih (h.tail_raiseFault c w) hrun
    exact ⟨c', w', es, rfl⟩

/-- Settles O55: the transfer is still pending after the run, and a run that ends normally leaves none. -/
theorem unansweredTransferStaysPending : Obligations.UnansweredTransferStaysPending := by
  intro k s t hstuck hrun
  obtain ⟨c, w, es, rfl⟩ := hstuck.stalled.run_eq k hrun
  refine ⟨rfl, rfl, rfl, rfl, rfl, rfl, rfl, fun ⟨_, _, hpend, _⟩ => ?_⟩
  have hsome := hstuck.stalled.1
  rw [show s.pend = none from hpend] at hsome
  cases hsome

end Sys2Proof.Machine
end

section
/-! Reset, waiting and abandoned transfers (R140, R160, R168), up to O9, O41, O42 and O53: a reset drops what was pending,
and an answer that is not the pending request's changes nothing. -/

namespace Sys2Proof.Machine

variable {s : State} {n : Nat} {a : BusAnswer} {rest : List Event}

/-- Settles O9, by the model's law of the step without an event. -/
theorem eventlessStepWaits : Obligations.EventlessStepWaits := fun _ => step_wait

/-- R44, R160: an answer that is not the pending request's is taken and changes nothing. -/
theorem step_answer_dropped (he : s.events = .answer n a :: rest) (h : s.pend = none ∨ n + 1 ≠ s.requests.length) :
    step s = .next (s.withEvents rest) := by
  rw [step_answer he]
  rcases busAnswer_cases n a (s.withEvents rest) with hdrop | ⟨p, -, hp, hn, -⟩
  · rw [hdrop]
  · rcases h with hnone | hother
    · cases hnone.symm.trans hp
    · exact absurd hn hother

/-- Settles O41: after a reset nothing is pending, so the answer that follows is dropped. -/
theorem resetRestoresEveryItem : Obligations.ResetRestoresEveryItem :=
  ⟨fun _ _ _ he => step_reset he,
    fun _ _ _ _ _ he =>
      run_succ_iff.mpr ⟨_, step_reset he, run_succ_iff.mpr ⟨_, step_answer_dropped rfl (.inl rfl), rfl⟩⟩,
    rfl⟩

/-- R104: an RDDEV issued to an idle machine. -/
theorem step_rddev (hi : s.idle) (he : s.events = .command 0x5000 :: rest) :
    step s = .next (issueTransfer .rddevRead (s.withEvents rest)) := by
  have hidle : (s.withEvents rest).idle := hi
  have hword : decode s.cfg 0x5000 = .ok .rddev := decode_encode (i := .rddev) rfl
  rw [stepRunsDecodedCommand s 0x5000 .rddev rest he hword]
  exact exec_rddev hidle

/-- Settles O42: the RDDEV after the reset has a request of its own, one number above the abandoned one's. -/
theorem abandonedAnswersAreDropped : Obligations.AbandonedAnswersAreDropped := by
  refine ⟨fun s n a rest he h => step_answer_dropped he h, fun s t p n a b rest _ hn he hrun => ?_⟩
  obtain ⟨u, hu, hrun⟩ := run_succ_iff.mp hrun
  obtain ⟨v, hv, hrun⟩ := run_succ_iff.mp hrun
  obtain ⟨x, hx, hdone⟩ := run_succ_iff.mp hrun
  cases hdone
  rw [step_reset he] at hu
  cases hu
  rw [step_rddev ⟨rfl, rfl⟩ rfl] at hv
  cases hv
  rw [step_answer_dropped rfl (.inr (by simp [hn]))] at hx
  cases hx
  exact ⟨rfl, rfl, rfl, rfl, rfl⟩

/-- Settles O53: the default table is well-formed (O57), the frames and registers are zero, and nothing is pending. -/
theorem invariantHoldsAtReset : Obligations.InvariantHoldsAtReset := by
  obtain ⟨htable, -⟩ := defaultTablePassesChecks
  exact
    { tableOk := htable
      lfcZero := rfl
      faultCmdZero := fun _ => rfl
      uncoveredZero := fun i => by simp [State.reset]
      snapshotCurrent := nofun
      requestPending := nofun
      writeSynced := nofun
      readingReady := nofun }

end Sys2Proof.Machine
end

section
/-! The normal end of a run (R166, log 23), up to O60: what has been answered and what is owed never grow together, and a
fault and a reset in a pending transfer each take one command from them for good, so that the count of responses R166 asks
for is out of reach. -/

namespace Sys2Proof.Machine

variable {s t : State} {i : Instr} {n : Nat} {a : BusAnswer} {w : CmdWord} {rest : List Event}

/-- R27, R166: the responses sent and the responses owed. A run that ends normally has sent as many as it began with of
both. -/
def State.account (s : State) : Nat := s.responses.length + s.owed

theorem account_of_command (he : s.events = .command w :: rest) : s.account = (s.withEvents rest).account + 1 := by
  simp [State.account, State.owed, he, List.countP_cons, Event.isCommand]
  omega

theorem account_of_not_command {e : Event} (he : s.events = e :: rest) (hother : e.isCommand = false) :
    s.account = (s.withEvents rest).account := by
  simp [State.account, State.owed, he, hother]

/-- R160: a reset takes the pending command from the account. -/
theorem account_of_reset {b : Byte} (he : s.events = .reset b :: rest) :
    s.account = (resetWith b (s.withEvents rest)).account + s.pend.toList.length := by
  rw [account_of_not_command he rfl]
  simp [State.account, State.owed, Nat.add_assoc]

/-- R143: a fault writes nothing the account counts. -/
@[simp] theorem account_raiseFault (c : Cause) (w : CmdWord) (s : State) : (raiseFault c w s).account = s.account := rfl

/-- R143: a command that ends in a fault is not answered and not pending. -/
theorem CommandEffect.account_of_fault (h : CommandEffect s i t) (hf : t.fault ≠ .none) : t.account = s.account := by
  cases h with
  | notAccepted | busy | unassigned | unsynced | uninitialized => rfl
  | init hi | resync hi | getr fid spec hi | rddev hi | wrdev hi | getmag hi => exact absurd hi.1 hf
  | setw fid v spec hi => simp [clearSyncIfReserved_eq, hi.1] at hf

/-- R27: a command becomes the pending one or its response, or is lost to a fault. -/
theorem CommandEffect.account_le (h : CommandEffect s i t) : t.account ≤ s.account + 1 := by
  by_cases hf : t.fault = .none
  · obtain ⟨-, -, -, -, -, hev⟩ := h.frame
    have hsum := h.completes hf
    simp only [State.account, State.owed, hev]
    omega
  · rw [h.account_of_fault hf]
    exact Nat.le_succ s.account

/-- R27: an answer leaves the account. -/
theorem AnswerEffect.account (h : AnswerEffect s n a t) : t.account = s.account := by
  obtain ⟨-, -, -, -, hev⟩ := h.frame
  have hsum := h.completes
  simp only [State.account, State.owed, hev]
  omega

theorem StepEffect.account_le (h : StepEffect s t) : t.account ≤ s.account := by
  cases h with
  | wait => exact le_rfl
  | command w rest i t he hd hc => exact hc.account_le.trans_eq (account_of_command he).symm
  | illegalNotAccepted w rest e he | illegalBusy w rest e he | illegal w rest e he =>
    simp [account_of_command he]
  | answer n a rest t he ha => exact (ha.account.trans (account_of_not_command he rfl).symm).le
  | reset b rest he =>
    rw [account_of_reset he]
    exact Nat.le_add_right _ _

/-- R143: the command a fault turns away will have no response. -/
theorem account_lt_of_step_fault (hstep : step s = .next t) (hs : s.fault = .none) (ht : t.fault ≠ .none) :
    t.account < s.account := by
  obtain ⟨w, rest, he, heq⟩ := faultEntryIsPrecise s t hstep hs ht
  have hraise : t = raiseFault t.fault w (s.withEvents rest) := heq
  rw [hraise, account_raiseFault, account_of_command he]
  exact Nat.lt_succ_self _

/-- R160: nor will the command of a transfer that a reset abandons. -/
theorem account_lt_of_step_abandon {b : Byte} (hstep : step s = .next t) (hp : s.pend.isSome)
    (he : s.events = .reset b :: rest) : t.account < s.account := by
  obtain ⟨p, hp⟩ := Option.isSome_iff_exists.mp hp
  rw [step_reset he] at hstep
  cases hstep
  rw [account_of_reset he, hp]
  exact Nat.lt_succ_self _

/-- R27: no run gains responses it did not owe. -/
theorem account_le_of_run (k : Nat) (hrun : Host.Core.run core k s = .next t) : t.account ≤ s.account := by
  induction k generalizing s with
  | zero =>
    cases hrun
    exact le_rfl
  | succ k ih =>
    obtain ⟨u, hstep, hrun⟩ := run_succ_iff.mp hrun
    exact (ih hrun).trans (step_inversion hstep).account_le

/-- R143: a run that begins without a fault and ends with one has a step that raises it: the first step, or one of the
rest. -/
theorem account_lt_of_run_fault (k : Nat) (hrun : Host.Core.run core k s = .next t) (hs : s.fault = .none)
    (ht : t.fault ≠ .none) : t.account < s.account := by
  induction k generalizing s with
  | zero =>
    cases hrun
    exact absurd hs ht
  | succ k ih =>
    obtain ⟨u, hstep, hrun⟩ := run_succ_iff.mp hrun
    by_cases hu : u.fault = .none
    · exact (ih hrun hu).trans_le (step_inversion hstep).account_le
    · exact (account_le_of_run k hrun).trans_lt (account_lt_of_step_fault hstep hs hu)

/-- R166: a run that ends normally ends with an account no lower than its first. -/
theorem State.endsNormally.account_le (h : s.endsNormally t) : s.account ≤ t.account := by
  obtain ⟨-, -, -, hresp, -⟩ := h
  rw [State.account, ← hresp]
  exact Nat.le_add_right _ _

/-- Settles O60: the first clause by the conserved sum of O50, with nothing owed at the end; the second because the account
has fallen on the way. -/
theorem normalEndNeedsEveryResponse : Obligations.NormalEndNeedsEveryResponse := by
  refine ⟨fun k s t hno hrun hf hp hc => ⟨⟨k, hrun⟩, hf, hp, ?_, hc⟩, fun k j s u t hsu hut hlost hend => ?_⟩
  · obtain ⟨-, hsum⟩ := run_conserves k hno hrun hf
    have howed : t.owed = 0 := by simp [State.owed, hp, hc]
    rwa [howed, Nat.add_zero] at hsum
  · suffices hlt : t.account < s.account from absurd hend.account_le hlt.not_ge
    rcases hlost with ⟨hs, hu⟩ | ⟨hp, b, rest, he, hj⟩
    · exact (account_le_of_run j hut).trans_lt (account_lt_of_run_fault k hsu hs hu)
    · obtain ⟨j, rfl⟩ := Nat.exists_eq_succ_of_ne_zero hj.ne'
      obtain ⟨v, hstep, hvt⟩ := run_succ_iff.mp hut
      calc t.account ≤ v.account := account_le_of_run j hvt
        _ < u.account := account_lt_of_step_abandon hstep hp he
        _ ≤ s.account := account_le_of_run k hsu

end Sys2Proof.Machine
end
